-- ==== Sys2Proof/Word.lean ====
section
/-! DEFINITION. The word types of the block (00_scope.md R7, R11). Every value of the block is an
unsigned bit vector of one of these widths. -/

namespace Sys2Proof

/-- A byte of the FIFO, of the packet buffer or of a CMD field. -/
abbrev Byte := BitVec 8

/-- A 16-bit length, offset or cursor. -/
abbrev Half := BitVec 16

/-- A 32-bit CMD, DATA, RESULT, counter, timer or NOW word (R7). -/
abbrev Word := BitVec 32

/-- The 48-bit device identity (10_state.md R28). -/
abbrev Mac := BitVec 48

end Sys2Proof
end

