-- ==== Sys2Proof/Config.lean ====
section
/-! DEFINITION. The implementation parameters of 00_scope.md R6 and the fixed sizes of R7. -/

namespace Sys2Proof

/-- `P_CK_ALG`: the check algorithm of both validators (20_memory.md R50). -/
inductive CkAlg where
  | sum8
  | xor8
  deriving DecidableEq, Repr

/-- `P_TMR_CMP`: the timer firing comparison (42_timer.md R91). -/
inductive TmrCmp where
  | ge
  | gt
  deriving DecidableEq, Repr

/-- `P_WIRE_ORDER`: the byte order of `data_length` on the wire (20_memory.md R44). -/
inductive WireOrder where
  | le
  | be
  deriving DecidableEq, Repr

/-- The eight parameters of the block (R6). A model takes each as an argument: here they are one
record, which no step changes. Which records are legal is `Config.legal` (R8). -/
structure Config where
  /-- `P_FIFO_CAP`: FIFO capacity in bytes. -/
  fifoCap : Nat
  /-- `P_MAX_FRAME`: maximum frame size, the size of the packet buffer. -/
  maxFrame : Nat
  /-- `P_NTIMERS`: number of periodic timers. -/
  nTimers : Nat
  /-- `P_PROTO_REV`: reset value of `CFG_REV`. -/
  protoRev : Byte
  /-- `P_LINK_TIMEOUT`: reset value of timer 0's interval in ms. -/
  linkTimeout : Word
  /-- `P_CK_ALG`. -/
  ckAlg : CkAlg
  /-- `P_TMR_CMP`. -/
  tmrCmp : TmrCmp
  /-- `P_WIRE_ORDER`. -/
  wireOrder : WireOrder
  deriving DecidableEq, Repr

/-- The reference configuration: the defaults of R6, which every test vector uses. -/
def Config.reference : Config where
  fifoCap := 512
  maxFrame := 256
  nTimers := 4
  protoRev := 0x03
  linkTimeout := 1000
  ckAlg := .sum8
  tmrCmp := .ge
  wireOrder := .le

/-- `HDR_SIZE` (R7): the sum of the header's field widths. -/
abbrev hdrSize : Nat := 15

/-- `PCK_SIZE` (R7): the width of the payload check. -/
abbrev pckSize : Nat := 1

/-- `MIN_FRAME` (R7): `HDR_SIZE + PCK_SIZE`. -/
abbrev minFrame : Nat := hdrSize + pckSize

end Sys2Proof
end

