-- ==== Sys2Proof/Syntax.lean ====
section
/-! DEFINITION. The 26 commands of the block (30_encoding.md R68) and the five pseudo-commands
(R73). Operands are the unsigned fields of R67: `b` a byte, `k` a 16-bit offset, `t`, `f` and `c` the
8-bit field `A`, `d` the DATA word. An operand out of its space's range is no decode error (R67), so
the types admit exactly the values that the encoding admits. -/

namespace Sys2Proof

/-- One constructor per row of spec/opcode_table.json, in its order. -/
inductive Instr where
  | fifoPush (b : Byte)
  | fifoPop
  | fifoPeek (k : Half)
  | fifoAvail
  | fifoReset
  | tmrInit (t : Byte) (d : Word)
  | tmrElapsed (t : Byte)
  | tmrTryfire (t : Byte)
  | tmrRestart (t : Byte)
  | pktRd (k : Half)
  | pktWr (k : Half) (b : Byte)
  | pktGetf (f : Byte)
  | pktSetf (f : Byte) (d : Word)
  | hdrCk
  | payCk
  | pktValidate
  | pktFinalize
  | rsmStep
  | rsmPoll
  | rsmReset
  | rxPush (b : Byte)
  | linkCheck
  | linkSetest
  | tick
  | csrRd (c : Byte)
  | csrWr (c : Byte) (d : Word)
  deriving DecidableEq, Repr

/-- The pseudo-commands of R73. Each has no meaning of its own beyond its expansion
(Machine/Assembler.lean, `Pseudo.expand`). -/
inductive Pseudo where
  | nop
  | cntClr (c : Byte)
  | wdogInit (d : Word)
  | pktLoad (k : Half) (bs : List Byte)
  | drain (bs : List Byte)
  deriving DecidableEq, Repr

end Sys2Proof
end

