-- ==== Sys2Proof/WellFormed.lean ====
section
/-! DEFINITION. What is well formed before anything runs: a configuration (00_scope.md R8) and a
pseudo-command (30_encoding.md R73). A command of `Instr` needs no check of its own: its operand
types hold exactly the values its encoding admits, and R67 says that an operand out of its space's
range is checked by the command, not by the decoder. -/

namespace Sys2Proof

/-- R8: `16 <= P_MAX_FRAME`. -/
def Config.frameHoldsMinimum (c : Config) : Bool := decide (minFrame ≤ c.maxFrame)

/-- R8: `P_MAX_FRAME <= P_FIFO_CAP`. -/
def Config.fifoHoldsFrame (c : Config) : Bool := decide (c.maxFrame ≤ c.fifoCap)

/-- R8: `P_FIFO_CAP <= 65535`. -/
def Config.fifoCapFits (c : Config) : Bool := decide (c.fifoCap ≤ 65535)

/-- R8: `1 <= P_NTIMERS <= 16`. -/
def Config.timerCountLegal (c : Config) : Bool := decide (1 ≤ c.nTimers ∧ c.nTimers ≤ 16)

/-- R8: a configuration is legal only when all four conditions hold. -/
def Config.legal (c : Config) : Bool :=
  c.frameHoldsMinimum && c.fifoHoldsFrame && c.fifoCapFits && c.timerCountLegal

/-- R73: a pseudo-command that lists bytes lists at least one, and every offset of a `PKT_LOAD` fits
the 16-bit operand of `PKT_WR` (log 11: R73 does not say what a larger one would assemble to). -/
def Pseudo.wf : Pseudo → Bool
  | .nop => true
  | .cntClr _ => true
  | .wdogInit _ => true
  | .pktLoad k bs => decide (0 < bs.length ∧ k.toNat + bs.length ≤ 2 ^ 16)
  | .drain bs => decide (0 < bs.length)

end Sys2Proof
end

