-- ==== Sys2Proof/Machine/State.lean ====
section
/-! DEFINITION. The state of the block (10_state.md R20), the model's own input fields, the reasons
a step can stop, and the state after reset (R37, 70_reset_and_hazards.md R160). -/

namespace Sys2Proof.Machine

/-- Byte storage: (index, byte) pairs with indices strictly rising and no byte equal to what an
unlisted index reads as (log 5). Its operations are in Machine/Ops.lean. -/
abbrev Memory := List Host.Cell

/-- The reassembler states of R29; `ready` exists only within the step that delivers a frame. -/
inductive RsmState where
  | seeking
  | headerPending
  | payloadPending
  | ready
  deriving DecidableEq, Repr

/-- One timer (R32): its reference time and its interval, in ms of the NOW input. -/
structure Timer where
  /-- `last[t]`. -/
  last : Word
  /-- `intv[t]`. -/
  intv : Word
  deriving DecidableEq, Repr

/-- What one step of the block takes from its ports (00_scope.md R10, 20_memory.md R55; log 1). The
NOW input has its own arbitrary value at every event. -/
inductive PortEvent where
  /-- HOST issues the command (CMD, DATA) on the command port. -/
  | host (now cmd data : Word)
  /-- RX delivers a byte on the RX port (45_link.md R132). -/
  | rx (now : Word) (b : Byte)
  /-- The block is reset (R160; log 4). -/
  | reset
  deriving DecidableEq, Repr

/-- Why the machine stops. Each is safe: none is reachable from a state that satisfies the invariant
of Sys2Proof/Safety.lean, and a stop proves nothing about the block. -/
inductive Fault where
  /-- Raised by `fifoPeek` and `fifoPeekMany` for a distance not below `fifo_count`, which 41_fifo.md
  R80 leaves undefined (93_implementation_defined.md section 1: fault). Safe. -/
  | fifoPeekBeyondHeld
  /-- Raised by `fifoDrop` on an empty FIFO, for which 41_fifo.md R81 is not defined
  (93_implementation_defined.md section 1: fault). Safe. -/
  | fifoDropEmpty
  /-- Raised by `rsmTransition` entered with `rsm_state == 3` (44_reassembler.md R115: must fault). Safe. -/
  | rsmStateReady
  /-- Raised by `rsmPayload` when the latched `rsm_len` is not a legal length (20_memory.md R49), for
  which R52 defines no payload check and PKT has no room; R117 latches legal lengths only (log 7). Safe. -/
  | payloadLengthIllegal
  /-- Raised by `rsmLoop` after the `3*fifo_count + 3` steps of 44_reassembler.md R122, which a poll
  never exceeds (log 6). Safe. -/
  | pollBoundExceeded
  deriving DecidableEq, Repr

/-- Why a step has no meaning. -/
inductive Refusal where
  /-- An instruction with no meaning yet, by its mnemonic; raised by `exec` alone. Safe. -/
  | notModelled (mnemonic : String)
  /-- A configuration that 00_scope.md R8 calls illegal, which a model must refuse; raised by `step`.
  Safe. -/
  | illegalConfiguration
  deriving DecidableEq, Repr

/-- The architectural state of R20, and after it the model's own three input fields. -/
structure State where
  /-- `fifo_mem`: ring-buffer storage (R23). -/
  fifoMem : Memory
  /-- `fifo_rd`: the read cursor (R23). -/
  fifoRd : Half
  /-- `fifo_wr`: the write cursor (R23). -/
  fifoWr : Half
  /-- `fifo_count`: bytes held (R23). -/
  fifoCount : Half
  /-- `PKT`: the single packet buffer (R25). -/
  pkt : Memory
  /-- `pkt_resp`: the response flag (R26). -/
  pktResp : Bool
  /-- `rsm_state` (R29). -/
  rsmState : RsmState
  /-- `rsm_len` (R30). -/
  rsmLen : Half
  /-- `last[t]` and `intv[t]` for t below `P_NTIMERS` (R32). -/
  timers : List Timer
  /-- `link_est` (R33). -/
  linkEst : Bool
  /-- `CFG_REV` (R27). -/
  cfgRev : Byte
  /-- `DEV_MAC` (R28). -/
  devMac : Mac
  /-- `JUNK_CNT` (R31). -/
  junkCnt : Word
  /-- `OVF_CNT` (R31). -/
  ovfCnt : Word
  /-- `HDRFAIL_CNT` (R31). -/
  hdrfailCnt : Word
  /-- `PAYFAIL_CNT` (R31). -/
  payfailCnt : Word
  /-- `FRAME_CNT` (R31). -/
  frameCnt : Word
  /-- `TIMEOUT_CNT` (R31). -/
  timeoutCnt : Word
  /-- `STATUS`, the response status of the last command (R21). -/
  status : Byte
  /-- `RESULT`, the response word of the last command (R21). -/
  result : Word
  /-- The model's own: the parameters (00_scope.md R6; log 3). -/
  cfg : Config
  /-- The model's own: the NOW input as the step being made samples it (00_scope.md R13; log 2). -/
  now : Word
  /-- The model's own: the port events to come, in the total order of 20_memory.md R57 (log 1). -/
  inputs : List PortEvent
  deriving DecidableEq, Repr

/-- The timer file after reset (R37). -/
def resetTimers (c : Config) : List Timer :=
  (List.range c.nTimers).map fun t => { last := 0, intv := if t = 0 then c.linkTimeout else 0 }

/-- The state after reset of a block with the parameters `c` (R37, R160). -/
def State.resetOf (c : Config) : State where
  fifoMem := []
  fifoRd := 0
  fifoWr := 0
  fifoCount := 0
  pkt := []
  pktResp := false
  rsmState := .seeking
  rsmLen := 0
  timers := resetTimers c
  linkEst := false
  cfgRev := c.protoRev
  devMac := 0
  junkCnt := 0
  ovfCnt := 0
  hdrfailCnt := 0
  payfailCnt := 0
  frameCnt := 0
  timeoutCnt := 0
  status := 0
  result := 0
  cfg := c
  now := 0
  inputs := []

/-- The state after reset in the reference configuration of 00_scope.md R6 (log 3, log 10). -/
def State.reset : State := State.resetOf Config.reference

end Sys2Proof.Machine
end

