-- ==== Sys2Proof/Machine/Ops.lean ====
section
/-! DEFINITION. The named operations over the block's state: responses and errors (00_scope.md R13,
60_exceptions.md R150), byte storage, the FIFO primitives (41_fifo.md R80 to R83), the packet buffer
(00_scope.md R12), byte assembly and the check function (20_memory.md R44 to R50), the timer functions
(42_timer.md R90, R91), and the two reset actions of the reassembler and of the link (44_reassembler.md
R123, 45_link.md R131). The block has no trap entry and no trap return (60_exceptions.md R155): what
a command error does is `raiseErr`, for every error of every command. -/

namespace Sys2Proof.Machine

/-! ### Responses and errors -/

/-- The status codes of 30_encoding.md R70. -/
inductive StatusCode where
  | ok
  | empty
  | overflow
  | notReady
  | ready
  | cont
  | fired
  | notFired
  | pktOk
  | badRev
  | badHck
  | badLen
  | badPck
  | illegal
  | badIndex
  | badOffset
  | badLength
  | readOnly
  deriving DecidableEq, Repr

/-- The code column of R70. -/
def StatusCode.code : StatusCode → Byte
  | .ok => 0x00
  | .empty => 0x01
  | .overflow => 0x02
  | .notReady => 0x03
  | .ready => 0x04
  | .cont => 0x05
  | .fired => 0x06
  | .notFired => 0x07
  | .pktOk => 0x10
  | .badRev => 0x11
  | .badHck => 0x12
  | .badLen => 0x13
  | .badPck => 0x14
  | .illegal => 0xE0
  | .badIndex => 0xE1
  | .badOffset => 0xE2
  | .badLength => 0xE3
  | .readOnly => 0xE4

/-- R70: codes 0xE0 to 0xE4 are errors, every other one is an outcome. -/
def StatusCode.isError : StatusCode → Bool
  | .illegal | .badIndex | .badOffset | .badLength | .readOnly => true
  | .ok | .empty | .overflow | .notReady | .ready | .cont | .fired | .notFired => false
  | .pktOk | .badRev | .badHck | .badLen | .badPck => false

/-- 00_scope.md R13 `respond(S, r)`: STATUS and RESULT, every other write of the command kept. -/
def respond (c : StatusCode) (r : Word) (s : State) : State :=
  { s with status := c.code, result := r }

/-- 00_scope.md R13 `raise Err(S)` and 60_exceptions.md R150: STATUS gets the error code, RESULT 0,
and nothing else changes. -/
def raiseErr (c : StatusCode) (s : State) : State := respond c 0 s

/-! ### Byte storage -/

/-- What a byte that storage does not list reads as: the reset contents 0x00 (10_state.md R37). -/
def Memory.unlisted : Byte := 0x00

/-- The byte at index `i`. -/
def Memory.read : Memory → Nat → Byte
  | [], _ => Memory.unlisted
  | (a, b) :: m, i => if i = a then b else Memory.read m i

/-- Write `v` at index `i`, keeping the canonical form. -/
def Memory.write : Memory → Nat → Byte → Memory
  | [], i, v => if v = Memory.unlisted then [] else [(i, v)]
  | (a, b) :: m, i, v =>
    if i < a then (if v = Memory.unlisted then (a, b) :: m else (i, v) :: (a, b) :: m)
    else if i = a then (if v = Memory.unlisted then m else (a, v) :: m)
    else (a, b) :: Memory.write m i v

/-- The canonical form: indices strictly rising, no byte equal to what an unlisted index reads as. -/
abbrev Memory.wf (m : Memory) : Prop :=
  m.Pairwise (fun x y => x.1 < y.1) ∧ ∀ c ∈ m, c.2 ≠ Memory.unlisted

/-- Every listed index is below `n`, the size of the space. -/
abbrev Memory.below (m : Memory) (n : Nat) : Prop := ∀ c ∈ m, c.1 < n

/-! ### Bytes, words and the check function -/

/-- 20_memory.md R46 `LeN(L)`: the sum of `L[i] * 2^(8i)`. -/
def leN : List Byte → Nat
  | [] => 0
  | b :: bs => b.toNat + 256 * leN bs

/-- 20_memory.md R44 `Wire2([b0, b1])`. -/
def wire2 (o : WireOrder) (b0 b1 : Byte) : Half :=
  match o with
  | .le => BitVec.ofNat 16 (b0.toNat + 256 * b1.toNat)
  | .be => BitVec.ofNat 16 (256 * b0.toNat + b1.toNat)

/-- 20_memory.md R44, the inverse of `wire2`: the two wire bytes of a 16-bit value. -/
def wireBytes (o : WireOrder) (v : Half) : List Byte :=
  match o with
  | .le => [v.extractLsb' 0 8, v.extractLsb' 8 8]
  | .be => [v.extractLsb' 8 8, v.extractLsb' 0 8]

/-- Byte `i` of a word, `d[8i+7:8i]`. -/
def wordByte (d : Word) (i : Nat) : Byte := d.extractLsb' (8 * i) 8

/-- The six MAC bytes in frame order, byte `i` being `DEV_MAC[8i+7:8i]` (10_state.md R28). -/
def macBytes (m : Mac) : List Byte := (List.range 6).map fun i => m.extractLsb' (8 * i) 8

/-- 20_memory.md R50 `Ck(L)`. -/
def ck (alg : CkAlg) (l : List Byte) : Byte :=
  match alg with
  | .sum8 => BitVec.ofNat 8 ((l.map BitVec.toNat).sum)
  | .xor8 => l.foldl (· ^^^ ·) 0

/-- 20_memory.md R49: a data_length is legal iff `MIN_FRAME <= dl <= P_MAX_FRAME`. -/
def lengthLegal (c : Config) (dl : Half) : Bool :=
  decide (minFrame ≤ dl.toNat ∧ dl.toNat ≤ c.maxFrame)

/-! ### The FIFO -/

/-- The storage slot of the byte at distance `k` from the head (10_state.md R23). -/
def fifoSlot (s : State) (k : Nat) : Nat := (s.fifoRd.toNat + k) % s.cfg.fifoCap

/-- The stored byte at distance `k` from the head. -/
def fifoByte (s : State) (k : Nat) : Byte := Memory.read s.fifoMem (fifoSlot s k)

/-- The bytes the FIFO holds, head first (10_state.md R23). -/
def fifoHeld (s : State) : List Byte := (List.range s.fifoCount.toNat).map (fifoByte s)

/-- 41_fifo.md R80 `FifoPeek(k)`; undefined beyond the held bytes, where the model faults. -/
def fifoPeek (s : State) (k : Nat) : Except Fault Byte :=
  if k < s.fifoCount.toNat then .ok (fifoByte s k) else .error .fifoPeekBeyondHeld

/-- `[FifoPeek(0), ..., FifoPeek(n-1)]` (44_reassembler.md R117, R119). -/
def fifoPeekMany (s : State) (n : Nat) : Except Fault (List Byte) :=
  if n ≤ s.fifoCount.toNat then .ok ((List.range n).map (fifoByte s))
  else .error .fifoPeekBeyondHeld

/-- A cursor moved on by one, modulo `P_FIFO_CAP`. -/
def cursorNext (c : Config) (p : Half) : Half := BitVec.ofNat 16 ((p.toNat + 1) % c.fifoCap)

/-- 41_fifo.md R81 `FifoDrop()`; not defined on an empty FIFO, where the model faults. -/
def fifoDrop (s : State) : Except Fault State :=
  if s.fifoCount = 0 then .error .fifoDropEmpty
  else .ok { s with fifoRd := cursorNext s.cfg s.fifoRd, fifoCount := s.fifoCount - 1 }

/-- `repeat n times: FifoDrop()` (44_reassembler.md R120). -/
def fifoDropMany : Nat → State → Except Fault State
  | 0, s => .ok s
  | n + 1, s =>
    match fifoDrop s with
    | .ok t => fifoDropMany n t
    | .error f => .error f

/-- Whether the FIFO is full, `fifo_count == P_FIFO_CAP`. -/
def fifoFull (s : State) : Bool := s.fifoCount.toNat == s.cfg.fifoCap

/-- 41_fifo.md R82 `FifoPut(b)`: append a byte, or drop it and count the drop when the FIFO is full. -/
def fifoPut (b : Byte) (s : State) : StatusCode × State :=
  if fifoFull s then (.overflow, { s with ovfCnt := s.ovfCnt + 1 })
  else
    (.ok, { s with
      fifoMem := Memory.write s.fifoMem s.fifoWr.toNat b
      fifoWr := cursorNext s.cfg s.fifoWr
      fifoCount := s.fifoCount + 1 })

/-- 41_fifo.md R83 `FifoClear()`: the cursors and the count; storage and counters stay. -/
def fifoClear (s : State) : State := { s with fifoRd := 0, fifoWr := 0, fifoCount := 0 }

/-! ### The packet buffer -/

/-- `PKT[i]` (00_scope.md R12). -/
def pktByte (s : State) (i : Nat) : Byte := Memory.read s.pkt i

/-- `MemRead(PKT, i, n)` (00_scope.md R12). -/
def pktBytes (s : State) (i n : Nat) : List Byte := (List.range n).map fun j => pktByte s (i + j)

/-- `PKT[i] <- b` (00_scope.md R12). -/
def pktPut (i : Nat) (b : Byte) (s : State) : State := { s with pkt := Memory.write s.pkt i b }

/-- `MemWrite(PKT, i, n, L)` (00_scope.md R12). -/
def pktPutMany (i : Nat) : List Byte → State → State
  | [], s => s
  | b :: bs, s => pktPutMany (i + 1) bs (pktPut i b s)

/-- 43_frame.md R100 `PktDlen()`. -/
def pktDlen (s : State) : Half := wire2 s.cfg.wireOrder (pktByte s 12) (pktByte s 13)

/-- 43_frame.md R100 `PktLegal()`. -/
def pktLegal (s : State) : Bool := lengthLegal s.cfg (pktDlen s)

/-- The header check of the frame in PKT, `Ck(MemRead(PKT, 0, 14))` (20_memory.md R51). -/
def pktHeaderCk (s : State) : Byte := ck s.cfg.ckAlg (pktBytes s 0 14)

/-- The payload check of the frame in PKT for the length `dl`, `Ck(MemRead(PKT, 15, dl - 16))`
(20_memory.md R52). -/
def pktPayloadCk (s : State) (dl : Half) : Byte :=
  ck s.cfg.ckAlg (pktBytes s hdrSize (dl.toNat - minFrame))

/-- The stored payload check byte, `PKT[dl - 1]`. -/
def pktStoredPck (s : State) (dl : Half) : Byte := pktByte s (dl.toNat - 1)

/-! ### The timer file -/

/-- Timer `t`; a timer that the list lacks reads as zeros (log 9: no state that a run reaches). -/
def timerAt (s : State) (t : Nat) : Timer := s.timers.getD t { last := 0, intv := 0 }

/-- Replace timer `t`. -/
def setTimer (t : Nat) (tm : Timer) (s : State) : State := { s with timers := s.timers.set t tm }

/-- `last[t] <- w`. -/
def setLast (t : Nat) (w : Word) (s : State) : State :=
  setTimer t { timerAt s t with last := w } s

/-- 42_timer.md R90 `Elapsed(t)`. -/
def elapsed (s : State) (t : Nat) : Word :=
  if (timerAt s t).last.toNat ≤ s.now.toNat then
    BitVec.ofNat 32 (s.now.toNat - (timerAt s t).last.toNat)
  else 0

/-- What a firing check returns (42_timer.md R91): NOT_FIRED, or FIRED with its overshoot. -/
inductive Fire where
  | notFired
  | fired (overshoot : Word)
  deriving DecidableEq, Repr

/-- The firing comparison of R91 by `P_TMR_CMP`. -/
def fires (c : TmrCmp) (diff intv : Nat) : Bool :=
  match c with
  | .ge => decide (intv ≤ diff)
  | .gt => decide (intv < diff)

/-- 42_timer.md R91 `TryFire(t)`: resynchronise on a backward clock; otherwise fire when the interval
has elapsed, snapping to NOW when more than one interval behind and catching up by exactly one
interval else. The arithmetic is exact and narrowed at the end. -/
def tryFire (t : Nat) (s : State) : Fire × State :=
  let last := (timerAt s t).last.toNat
  let intv := (timerAt s t).intv.toNat
  let now := s.now.toNat
  if now < last then (.notFired, setLast t s.now s)
  else if fires s.cfg.tmrCmp (now - last) intv then
    if intv < now - last - intv then
      (.fired (BitVec.ofNat 32 (now - last - intv)), setLast t s.now s)
    else
      (.fired (BitVec.ofNat 32 (now - last - intv)),
        setLast t (BitVec.ofNat 32 (last + intv)) s)
  else (.notFired, s)

/-- The status code of a firing check (30_encoding.md R70). -/
def Fire.status : Fire → StatusCode
  | .notFired => .notFired
  | .fired _ => .fired

/-- The RESULT of a firing check: the overshoot, 0 where it did not fire (R91). -/
def Fire.overshoot : Fire → Word
  | .notFired => 0
  | .fired v => v

/-- Whether the check fired. -/
def Fire.hasFired : Fire → Bool
  | .notFired => false
  | .fired _ => true

/-! ### Reset actions and the received byte -/

/-- 44_reassembler.md R123 `RsmClear()`. -/
def rsmClear (s : State) : State := { s with rsmState := .seeking, rsmLen := 0 }

/-- 45_link.md R131 `LinkTimeout()`: FIFO and reassembler cleared, link not established, counted; PKT
and `pkt_resp` are not touched. -/
def linkTimeout (s : State) : State :=
  let t := rsmClear (fifoClear s)
  { t with linkEst := false, timeoutCnt := t.timeoutCnt + 1 }

/-- The watchdog check of LINK_CHECK and TICK (45_link.md R135, R137): `TryFire(0)`, and
`LinkTimeout()` when it fired. -/
def checkTimeout (s : State) : Fire × State :=
  match tryFire 0 s with
  | (.notFired, t) => (.notFired, t)
  | (.fired v, t) => (.fired v, linkTimeout t)

/-- The body shared by RX_PUSH and every RX-port step (45_link.md R132, R134): `FifoPut(b)`, then the
watchdog restarts, after a dropped byte too (R133). -/
def receiveByte (b : Byte) (s : State) : StatusCode × State :=
  ((fifoPut b s).1, setLast 0 s.now (fifoPut b s).2)

end Sys2Proof.Machine
end

