-- ==== Sys2Proof/Machine/Flags.lean ====
section
/-! DEFINITION. The CSR STATUS word, assembled at read time from live state (10_state.md R35), and the
encoding of the reassembler state that it and the reassembler's RESULT show (R29). -/

namespace Sys2Proof.Machine

/-- The value column of R29. -/
def RsmState.code : RsmState → BitVec 2
  | .seeking => 0
  | .headerPending => 1
  | .payloadPending => 2
  | .ready => 3

/-- `zext_32(rsm_state)` (44_reassembler.md R121, R122). -/
def rsmStateWord (s : State) : Word := s.rsmState.code.setWidth 32

/-- Bits [1:0] `RSM`. -/
def flagRsm (s : State) : BitVec 2 := s.rsmState.code

/-- Bit [2] `LINK`. -/
def flagLink (s : State) : BitVec 1 := BitVec.ofBool s.linkEst

/-- Bit [3] `EMPTY`: 1 iff `fifo_count == 0`. -/
def flagEmpty (s : State) : BitVec 1 := BitVec.ofBool (s.fifoCount == 0)

/-- Bit [4] `FULL`: 1 iff `fifo_count == P_FIFO_CAP`. -/
def flagFull (s : State) : BitVec 1 := BitVec.ofBool (fifoFull s)

/-- Bit [5] `RESP`. -/
def flagResp (s : State) : BitVec 1 := BitVec.ofBool s.pktResp

/-- CSR STATUS (R35); bits [31:6] read 0. -/
def statusWord (s : State) : Word :=
  (0 : BitVec 26) ++ flagResp s ++ flagFull s ++ flagEmpty s ++ flagLink s ++ flagRsm s

end Sys2Proof.Machine
end

