-- ==== Sys2Proof/Machine/Operands.lean ====
section
/-! DEFINITION. What the 8-bit and 16-bit operands name: timers (42_timer.md R92), packet-buffer
offsets (20_memory.md R42), frame fields (20_memory.md R54) and control and status registers
(10_state.md R34, 46_csr.md R140), with their reads and writes. -/

namespace Sys2Proof.Machine

/-- R92: a timer operand is in range iff `t < P_NTIMERS`. -/
def timerInRange (s : State) (t : Byte) : Bool := decide (t.toNat < s.cfg.nTimers)

/-- R42: a packet-buffer offset is in range iff `k < P_MAX_FRAME`. -/
def offsetInRange (s : State) (k : Half) : Bool := decide (k.toNat < s.cfg.maxFrame)

/-! ### Frame fields -/

/-- The fields of 20_memory.md R54. -/
inductive Field where
  | rev
  | macLo
  | macHi
  | method
  | rpc
  | dlen
  | hck
  | pck
  | resp
  deriving DecidableEq, Repr

/-- The id column of R54; ids 9 to 255 are reserved. -/
def fieldOf (f : Byte) : Option Field :=
  match f.toNat with
  | 0 => some .rev
  | 1 => some .macLo
  | 2 => some .macHi
  | 3 => some .method
  | 4 => some .rpc
  | 5 => some .dlen
  | 6 => some .hck
  | 7 => some .pck
  | 8 => some .resp
  | _ => none

/-- R54 and 43_frame.md R103, R104: only field 7 needs a legal data_length in PKT. -/
def fieldNeedsLength : Field → Bool
  | .pck => true
  | .rev | .macLo | .macHi | .method | .rpc | .dlen | .hck | .resp => false

/-- The value column of R54, zero-extended to 32 bits. -/
def fieldRead (f : Field) (s : State) : Word :=
  match f with
  | .rev => (pktByte s 0).setWidth 32
  | .macLo => BitVec.ofNat 32 (leN (pktBytes s 1 4))
  | .macHi => BitVec.ofNat 32 (leN (pktBytes s 5 2))
  | .method => (pktByte s 7).setWidth 32
  | .rpc => BitVec.ofNat 32 (leN (pktBytes s 8 4))
  | .dlen => (pktDlen s).setWidth 32
  | .hck => (pktByte s 14).setWidth 32
  | .pck => (pktStoredPck s (pktDlen s)).setWidth 32
  | .resp => (BitVec.ofBool s.pktResp).setWidth 32

/-- The offset of the first PKT byte that a field's write stores to (43_frame.md R104). -/
def fieldOffset (f : Field) (s : State) : Nat :=
  match f with
  | .rev => 0
  | .macLo => 1
  | .macHi => 5
  | .method => 7
  | .rpc => 8
  | .dlen => 12
  | .hck => 14
  | .pck => (pktDlen s).toNat - 1
  | .resp => 0

/-- The bytes that a field's write stores from that offset on (43_frame.md R104); field 8 stores none. -/
def fieldBytes (f : Field) (d : Word) (s : State) : List Byte :=
  match f with
  | .rev => [wordByte d 0]
  | .macLo => [wordByte d 0, wordByte d 1, wordByte d 2, wordByte d 3]
  | .macHi => [wordByte d 0, wordByte d 1]
  | .method => [wordByte d 0]
  | .rpc => [wordByte d 0, wordByte d 1, wordByte d 2, wordByte d 3]
  | .dlen => wireBytes s.cfg.wireOrder (d.extractLsb' 0 16)
  | .hck => [wordByte d 0]
  | .pck => [wordByte d 0]
  | .resp => []

/-- What a field's write leaves in `pkt_resp`: `d[0]` for field 8, the old value for the others. -/
def fieldResp (f : Field) (d : Word) (s : State) : Bool :=
  match f with
  | .resp => d.getLsbD 0
  | .rev | .macLo | .macHi | .method | .rpc | .dlen | .hck | .pck => s.pktResp

/-- The `case f` of 43_frame.md R104. -/
def fieldWrite (f : Field) (d : Word) (s : State) : State :=
  { pktPutMany (fieldOffset f s) (fieldBytes f d s) s with pktResp := fieldResp f d s }

/-! ### Control and status registers -/

/-- The defined CSRs of 10_state.md R34. -/
inductive Csr where
  | cfgRev
  | status
  | fifoCount
  | junkCnt
  | ovfCnt
  | hdrfailCnt
  | payfailCnt
  | frameCnt
  | timeoutCnt
  | macLo
  | macHi
  | rsmLen
  | capFifo
  | capFrame
  | capTimers
  | tmrLast (t : Nat)
  | tmrIntv (t : Nat)
  deriving DecidableEq, Repr

/-- 46_csr.md R140 `CsrDefined(c)` and the number column of R34: the CSR that a number names, `none`
for a reserved number. -/
def csrOf (cfg : Config) (c : Byte) : Option Csr :=
  match c.toNat with
  | 0x00 => some .cfgRev
  | 0x01 => some .status
  | 0x02 => some .fifoCount
  | 0x03 => some .junkCnt
  | 0x04 => some .ovfCnt
  | 0x05 => some .hdrfailCnt
  | 0x06 => some .payfailCnt
  | 0x07 => some .frameCnt
  | 0x08 => some .timeoutCnt
  | 0x09 => some .macLo
  | 0x0A => some .macHi
  | 0x0B => some .rsmLen
  | 0x0C => some .capFifo
  | 0x0D => some .capFrame
  | 0x0E => some .capTimers
  | n =>
    if 0x20 ≤ n ∧ n < 0x20 + cfg.nTimers then some (.tmrLast (n - 0x20))
    else if 0x30 ≤ n ∧ n < 0x30 + cfg.nTimers then some (.tmrIntv (n - 0x30))
    else none

/-- 46_csr.md R140 `CsrRO(c)`. -/
def Csr.readOnly : Csr → Bool
  | .status | .fifoCount | .rsmLen | .capFifo | .capFrame | .capTimers => true
  | .tmrLast _ | .tmrIntv _ => true
  | .cfgRev | .junkCnt | .ovfCnt | .hdrfailCnt | .payfailCnt | .frameCnt | .timeoutCnt => false
  | .macLo | .macHi => false

/-- 46_csr.md R140 `CsrRead(c)`: the bits column of R34; reserved bits read 0. -/
def csrRead (c : Csr) (s : State) : Word :=
  match c with
  | .cfgRev => s.cfgRev.setWidth 32
  | .status => statusWord s
  | .fifoCount => s.fifoCount.setWidth 32
  | .junkCnt => s.junkCnt
  | .ovfCnt => s.ovfCnt
  | .hdrfailCnt => s.hdrfailCnt
  | .payfailCnt => s.payfailCnt
  | .frameCnt => s.frameCnt
  | .timeoutCnt => s.timeoutCnt
  | .macLo => s.devMac.extractLsb' 0 32
  | .macHi => (s.devMac.extractLsb' 32 16).setWidth 32
  | .rsmLen => s.rsmLen.setWidth 32
  | .capFifo => (BitVec.ofNat 16 s.cfg.fifoCap).setWidth 32
  | .capFrame => (BitVec.ofNat 16 s.cfg.maxFrame).setWidth 32
  | .capTimers => (BitVec.ofNat 5 s.cfg.nTimers).setWidth 32
  | .tmrLast t => (timerAt s t).last
  | .tmrIntv t => (timerAt s t).intv

/-- `DEV_MAC[31:0] <- d` (46_csr.md R142). -/
def macSetLo (m : Mac) (d : Word) : Mac := m.extractLsb' 32 16 ++ d

/-- `DEV_MAC[47:32] <- d[15:0]` (46_csr.md R142). -/
def macSetHi (m : Mac) (d : Word) : Mac := d.extractLsb' 0 16 ++ m.extractLsb' 0 32

/-- The `case c` of 46_csr.md R142: the named register only. A read-only CSR is never written. -/
def csrWrite (c : Csr) (d : Word) (s : State) : State :=
  match c with
  | .cfgRev => { s with cfgRev := d.extractLsb' 0 8 }
  | .junkCnt => { s with junkCnt := d }
  | .ovfCnt => { s with ovfCnt := d }
  | .hdrfailCnt => { s with hdrfailCnt := d }
  | .payfailCnt => { s with payfailCnt := d }
  | .frameCnt => { s with frameCnt := d }
  | .timeoutCnt => { s with timeoutCnt := d }
  | .macLo => { s with devMac := macSetLo s.devMac d }
  | .macHi => { s with devMac := macSetHi s.devMac d }
  | .status | .fifoCount | .rsmLen | .capFifo | .capFrame | .capTimers => s
  | .tmrLast _ | .tmrIntv _ => s

end Sys2Proof.Machine
end

