-- ==== Sys2Proof/Machine/Csrs.lean ====
section
/-! DEFINITION. The control and status register commands (46_csr.md R141, R142). -/

namespace Sys2Proof.Machine

/-- CSR_RD (R141): BAD_INDEX for a number that is not defined; a read has no side effect. -/
def execCsrRd (c : Byte) (s : State) : Host.Outcome State Fault Refusal :=
  match csrOf s.cfg c with
  | none => .next (raiseErr .badIndex s)
  | some r => .next (respond .ok (csrRead r s) s)

/-- CSR_WR (R142): BAD_INDEX before READ_ONLY (60_exceptions.md R151), then the named register. -/
def execCsrWr (c : Byte) (d : Word) (s : State) : Host.Outcome State Fault Refusal :=
  match csrOf s.cfg c with
  | none => .next (raiseErr .badIndex s)
  | some r =>
    if r.readOnly then .next (raiseErr .readOnly s)
    else .next (respond .ok 0 (csrWrite r d s))

end Sys2Proof.Machine
end

