-- ==== Sys2Proof/Machine/Fifo.lean ====
section
/-! DEFINITION. The FIFO commands (41_fifo.md R84 to R88). -/

namespace Sys2Proof.Machine

/-- FIFO_PUSH (R84): append a byte; RESULT is `fifo_count` after the put. -/
def execFifoPush (b : Byte) (s : State) : Host.Outcome State Fault Refusal :=
  let t := (fifoPut b s).2
  .next (respond (fifoPut b s).1 (t.fifoCount.setWidth 32) t)

/-- FIFO_POP (R85): remove and return the head byte; EMPTY with RESULT 0 when none is held. -/
def execFifoPop (s : State) : Host.Outcome State Fault Refusal :=
  if s.fifoCount = 0 then .next (respond .empty 0 s)
  else
    match fifoPeek s 0, fifoDrop s with
    | .ok b, .ok t => .next (respond .ok (b.setWidth 32) t)
    | .error f, _ => .fault f
    | _, .error f => .fault f

/-- FIFO_PEEK (R86): the byte at distance `k`; EMPTY beyond the held bytes. -/
def execFifoPeek (k : Half) (s : State) : Host.Outcome State Fault Refusal :=
  if k.toNat < s.fifoCount.toNat then
    match fifoPeek s k.toNat with
    | .ok b => .next (respond .ok (b.setWidth 32) s)
    | .error f => .fault f
  else .next (respond .empty 0 s)

/-- FIFO_AVAIL (R87): the number of bytes held. -/
def execFifoAvail (s : State) : Host.Outcome State Fault Refusal :=
  .next (respond .ok (s.fifoCount.setWidth 32) s)

/-- FIFO_RESET (R88): empty the FIFO; counters and the reassembler stay. -/
def execFifoReset (s : State) : Host.Outcome State Fault Refusal :=
  .next (respond .ok 0 (fifoClear s))

end Sys2Proof.Machine
end

