-- ==== Sys2Proof/Machine/Frame.lean ====
section
/-! DEFINITION. The packet-buffer, field, check and framer commands (43_frame.md R101 to R108). -/

namespace Sys2Proof.Machine

/-- PKT_RD (R101): one byte of the packet buffer. -/
def execPktRd (k : Half) (s : State) : Host.Outcome State Fault Refusal :=
  if offsetInRange s k then .next (respond .ok ((pktByte s k.toNat).setWidth 32) s)
  else .next (raiseErr .badOffset s)

/-- PKT_WR (R102): write one byte of the packet buffer; no check is recomputed. -/
def execPktWr (k : Half) (b : Byte) (s : State) : Host.Outcome State Fault Refusal :=
  if offsetInRange s k then .next (respond .ok 0 (pktPut k.toNat b s))
  else .next (raiseErr .badOffset s)

/-- PKT_GETF (R103): decode a field. -/
def execPktGetf (f : Byte) (s : State) : Host.Outcome State Fault Refusal :=
  match fieldOf f with
  | none => .next (raiseErr .badIndex s)
  | some g =>
    if fieldNeedsLength g && !pktLegal s then .next (raiseErr .badLength s)
    else .next (respond .ok (fieldRead g s) s)

/-- PKT_SETF (R104): encode a value into a field; bits above the field's width are ignored. -/
def execPktSetf (f : Byte) (d : Word) (s : State) : Host.Outcome State Fault Refusal :=
  match fieldOf f with
  | none => .next (raiseErr .badIndex s)
  | some g =>
    if fieldNeedsLength g && !pktLegal s then .next (raiseErr .badLength s)
    else .next (respond .ok 0 (fieldWrite g d s))

/-- `zext_32(p) << 8 | zext_32(h)`: the RESULT of both check validators (R105, R106). -/
def ckResult (stored computed : Byte) : Word :=
  ((BitVec.ofBool (stored == computed)).setWidth 32) <<< 8 ||| computed.setWidth 32

/-- HDR_CK (R105): the header check validator. -/
def execHdrCk (s : State) : Host.Outcome State Fault Refusal :=
  .next (respond .ok (ckResult (pktByte s 14) (pktHeaderCk s)) s)

/-- PAY_CK (R106): the payload check validator. -/
def execPayCk (s : State) : Host.Outcome State Fault Refusal :=
  if pktLegal s then
    .next (respond .ok
      (ckResult (pktStoredPck s (pktDlen s)) (pktPayloadCk s (pktDlen s))) s)
  else .next (raiseErr .badLength s)

/-- The outcome of PKT_VALIDATE: the first condition that fails, in the order of R107. -/
def validateCode (s : State) : StatusCode :=
  if pktByte s 0 ≠ s.cfgRev then .badRev
  else if pktByte s 14 ≠ pktHeaderCk s then .badHck
  else if pktLegal s = false then .badLen
  else if pktStoredPck s (pktDlen s) ≠ pktPayloadCk s (pktDlen s) then .badPck
  else .pktOk

/-- PKT_VALIDATE (R107): check the frame in PKT; RESULT is its data_length. -/
def execPktValidate (s : State) : Host.Outcome State Fault Refusal :=
  .next (respond (validateCode s) ((pktDlen s).setWidth 32) s)

/-- The stamps of R108: the revision tag in byte 0 and the device identity in bytes 1 to 6. -/
def stampFrame (s : State) : State :=
  pktPutMany 1 (macBytes s.devMac) (pktPut 0 s.cfgRev s)

/-- R108: the header check, after the stamps. -/
def stampHeaderCk (s : State) : State := pktPut 14 (pktHeaderCk s) s

/-- R108: the payload check of a frame of length `dl`. -/
def stampPayloadCk (dl : Half) (s : State) : State :=
  pktPut (dl.toNat - 1) (pktPayloadCk s dl) s

/-- PKT_FINALIZE (R108): stamp the revision and the identity, then recompute both checks. -/
def execPktFinalize (s : State) : Host.Outcome State Fault Refusal :=
  if pktLegal s then
    let dl := pktDlen s
    .next (respond .ok (dl.setWidth 32)
      (stampPayloadCk dl (stampHeaderCk (stampFrame s))))
  else .next (raiseErr .badLength s)

end Sys2Proof.Machine
end

