-- ==== Sys2Proof/Machine/Reassembler.lean ====
section
/-! DEFINITION. The packet reassembler: its step function (44_reassembler.md R115 to R120) and its
commands (R121 to R123). -/

namespace Sys2Proof.Machine

/-- What one reassembler step returns (R115). -/
inductive RsmReply where
  /-- CONTINUE: a transition was made. -/
  | cont
  /-- NOT_READY: the step waits for more bytes. -/
  | notReady
  /-- READY: a frame of `dl` bytes was delivered into PKT. -/
  | ready (dl : Half)
  deriving DecidableEq, Repr

/-- Byte `i` of a peeked list. -/
def byteAt (l : List Byte) (i : Nat) : Byte := l.getD i 0

/-- `l[i .. i+n-1]`. -/
def bytesFrom (l : List Byte) (i n : Nat) : List Byte := (l.drop i).take n

/-- The data_length of a frame's bytes, `Wire2(H[12..13])` (20_memory.md R47). -/
def frameLength (c : Config) (h : List Byte) : Half :=
  wire2 c.wireOrder (byteAt h 12) (byteAt h 13)

/-- The three conditions under which R117 accepts a peeked header. -/
def headerAccepted (c : Config) (rev : Byte) (h : List Byte) : Bool :=
  byteAt h 0 == rev && byteAt h 14 == ck c.ckAlg (bytesFrom h 0 14) &&
    lengthLegal c (frameLength c h)

/-- R119: whether the payload check of a peeked frame of `dl` bytes passes (20_memory.md R52). -/
def payloadPasses (c : Config) (dl : Nat) (F : List Byte) : Bool :=
  byteAt F (dl - 1) == ck c.ckAlg (bytesFrom F hdrSize (dl - minFrame))

/-- The discard shared by the three failure sites (R116, R117, R119): `FifoDrop()` and
`JUNK_CNT <- JUNK_CNT +_32 1`. -/
def junkOne (s : State) : Except Fault State :=
  match fifoDrop s with
  | .ok t => .ok { t with junkCnt := t.junkCnt + 1 }
  | .error f => .error f

/-- R116: Seeking. -/
def rsmSeek (s : State) : Except Fault (RsmReply × State) :=
  if s.fifoCount = 0 then .ok (.notReady, s)
  else
    match fifoPeek s 0 with
    | .error f => .error f
    | .ok b =>
      if b = s.cfgRev then .ok (.cont, { s with rsmState := .headerPending })
      else
        match junkOne s with
        | .error f => .error f
        | .ok t => .ok (.cont, t)

/-- R117: HeaderPending. The header is peeked, not consumed (90_conflicts.md C5). -/
def rsmHeader (s : State) : Except Fault (RsmReply × State) :=
  if s.fifoCount.toNat < hdrSize then .ok (.notReady, s)
  else
    match fifoPeekMany s hdrSize with
    | .error f => .error f
    | .ok h =>
      if headerAccepted s.cfg s.cfgRev h then
        .ok (.cont, { s with rsmLen := frameLength s.cfg h, rsmState := .payloadPending })
      else
        match junkOne s with
        | .error f => .error f
        | .ok t => .ok (.cont, rsmClear { t with hdrfailCnt := t.hdrfailCnt + 1 })

/-- R120: the delivery of the peeked frame `F` of `dl` bytes. PKT beyond it is unchanged. -/
def rsmDeliver (dl : Half) (F : List Byte) (s : State) : Except Fault (RsmReply × State) :=
  match fifoDropMany dl.toNat { pktPutMany 0 F s with pktResp := false } with
  | .error f => .error f
  | .ok t => .ok (.ready dl, rsmClear { t with frameCnt := t.frameCnt + 1 })

/-- R118 to R120: PayloadPending. -/
def rsmPayload (s : State) : Except Fault (RsmReply × State) :=
  if s.fifoCount.toNat < s.rsmLen.toNat then .ok (.notReady, s)
  else if lengthLegal s.cfg s.rsmLen = false then .error .payloadLengthIllegal
  else
    match fifoPeekMany s s.rsmLen.toNat with
    | .error f => .error f
    | .ok F =>
      if payloadPasses s.cfg s.rsmLen.toNat F then rsmDeliver s.rsmLen F s
      else
        match junkOne s with
        | .error f => .error f
        | .ok t => .ok (.cont, rsmClear { t with payfailCnt := t.payfailCnt + 1 })

/-- R115 `RsmStep()`: exactly one transition. -/
def rsmTransition (s : State) : Except Fault (RsmReply × State) :=
  match s.rsmState with
  | .seeking => rsmSeek s
  | .headerPending => rsmHeader s
  | .payloadPending => rsmPayload s
  | .ready => .error .rsmStateReady

/-- The loop of R122, at most `n` reassembler steps long. -/
def rsmLoop : Nat → State → Except Fault (RsmReply × State)
  | 0, _ => .error .pollBoundExceeded
  | n + 1, s =>
    match rsmTransition s with
    | .error f => .error f
    | .ok (.cont, t) => rsmLoop n t
    | .ok (.notReady, t) => .ok (.notReady, t)
    | .ok (.ready dl, t) => .ok (.ready dl, t)

/-- R122: a poll makes at most `3*fifo_count + 3` steps, `fifo_count` taken at the start. -/
def pollBound (s : State) : Nat := 3 * s.fifoCount.toNat + 3

/-- The loop of RSM_POLL and TICK (R122, 45_link.md R137). -/
def rsmRun (s : State) : Except Fault (RsmReply × State) := rsmLoop (pollBound s) s

/-- The status code of a reassembler reply (30_encoding.md R70). -/
def RsmReply.status : RsmReply → StatusCode
  | .cont => .cont
  | .notReady => .notReady
  | .ready _ => .ready

/-- The low 16 bits of a reassembler command's RESULT: the length delivered on READY, else
`rsm_state` after the step (R121, R122, 45_link.md R137). -/
def rsmLow (r : RsmReply) (t : State) : Half :=
  match r with
  | .ready dl => dl
  | .cont => t.rsmState.code.setWidth 16
  | .notReady => t.rsmState.code.setWidth 16

/-- RSM_STEP (R121): one transition. -/
def execRsmStep (s : State) : Host.Outcome State Fault Refusal :=
  match rsmTransition s with
  | .error f => .fault f
  | .ok (r, t) => .next (respond r.status ((rsmLow r t).setWidth 32) t)

/-- RSM_POLL (R122): run until a frame is delivered or more bytes are needed. -/
def execRsmPoll (s : State) : Host.Outcome State Fault Refusal :=
  match rsmRun s with
  | .error f => .fault f
  | .ok (r, t) => .next (respond r.status ((rsmLow r t).setWidth 32) t)

/-- RSM_RESET (R123): back to Seeking; the FIFO and the counters stay. -/
def execRsmReset (s : State) : Host.Outcome State Fault Refusal :=
  .next (respond .ok 0 (rsmClear s))

end Sys2Proof.Machine
end

