-- ==== Sys2Proof/Machine/Link.lean ====
section
/-! DEFINITION. The link commands: the received byte, the watchdog check, the established flag and the
server tick (45_link.md R134 to R137). -/

namespace Sys2Proof.Machine

/-- RX_PUSH (R134): one received byte from the command port; RESULT is `fifo_count` after it. -/
def execRxPush (b : Byte) (s : State) : Host.Outcome State Fault Refusal :=
  let t := (receiveByte b s).2
  .next (respond (receiveByte b s).1 (t.fifoCount.setWidth 32) t)

/-- LINK_CHECK (R135): CheckTimeout, reporting the overshoot. -/
def execLinkCheck (s : State) : Host.Outcome State Fault Refusal :=
  let r := checkTimeout s
  .next (respond r.1.status r.1.overshoot r.2)

/-- LINK_SETEST (R136): mark the link established; the watchdog is not restarted. -/
def execLinkSetest (s : State) : Host.Outcome State Fault Refusal :=
  .next (respond .ok 0 { s with linkEst := true })

/-- RESULT of TICK (R137): `zext_32(fired) << 16 | zext_32(low)`. -/
def tickResult (fired : Bool) (low : Half) : Word :=
  ((BitVec.ofBool fired).setWidth 32) <<< 16 ||| low.setWidth 32

/-- TICK (R137): CheckTimeout followed by the reassembly loop, in one step. -/
def execTick (s : State) : Host.Outcome State Fault Refusal :=
  let w := checkTimeout s
  match rsmRun w.2 with
  | .error f => .fault f
  | .ok (r, t) => .next (respond r.status (tickResult w.1.hasFired (rsmLow r t)) t)

end Sys2Proof.Machine
end

