-- ==== Sys2Proof/Machine/Timers.lean ====
section
/-! DEFINITION. The timer commands (42_timer.md R92 to R96). Each checks its timer number first and
raises BAD_INDEX (R92). -/

namespace Sys2Proof.Machine

/-- TMR_INIT (R93): `intv[t] <- d; last[t] <- NOW`. -/
def execTmrInit (t : Byte) (d : Word) (s : State) : Host.Outcome State Fault Refusal :=
  if timerInRange s t then
    .next (respond .ok 0 (setTimer t.toNat { last := s.now, intv := d } s))
  else .next (raiseErr .badIndex s)

/-- TMR_ELAPSED (R94): the time since the timer's reference time. -/
def execTmrElapsed (t : Byte) (s : State) : Host.Outcome State Fault Refusal :=
  if timerInRange s t then .next (respond .ok (elapsed s t.toNat) s)
  else .next (raiseErr .badIndex s)

/-- TMR_TRYFIRE (R95): the firing check of a timer, with its overshoot. -/
def execTmrTryfire (t : Byte) (s : State) : Host.Outcome State Fault Refusal :=
  if timerInRange s t then
    let r := tryFire t.toNat s
    .next (respond r.1.status r.1.overshoot r.2)
  else .next (raiseErr .badIndex s)

/-- TMR_RESTART (R96): `last[t] <- NOW`. -/
def execTmrRestart (t : Byte) (s : State) : Host.Outcome State Fault Refusal :=
  if timerInRange s t then .next (respond .ok 0 (setLast t.toNat s.now s))
  else .next (raiseErr .badIndex s)

end Sys2Proof.Machine
end

