-- ==== Sys2Proof/Machine/Dispatch.lean ====
section
/-! DEFINITION. The meaning of every command: one arm per constructor. -/

namespace Sys2Proof.Machine

def exec (i : Instr) (s : State) : Host.Outcome State Fault Refusal :=
  match i with
  | .fifoPush b => Sys2Proof.Machine.execFifoPush b s
  | .fifoPop => Sys2Proof.Machine.execFifoPop s
  | .fifoPeek k => Sys2Proof.Machine.execFifoPeek k s
  | .fifoAvail => Sys2Proof.Machine.execFifoAvail s
  | .fifoReset => Sys2Proof.Machine.execFifoReset s
  | .tmrInit t d => Sys2Proof.Machine.execTmrInit t d s
  | .tmrElapsed t => Sys2Proof.Machine.execTmrElapsed t s
  | .tmrTryfire t => Sys2Proof.Machine.execTmrTryfire t s
  | .tmrRestart t => Sys2Proof.Machine.execTmrRestart t s
  | .pktRd k => Sys2Proof.Machine.execPktRd k s
  | .pktWr k b => Sys2Proof.Machine.execPktWr k b s
  | .pktGetf f => Sys2Proof.Machine.execPktGetf f s
  | .pktSetf f d => Sys2Proof.Machine.execPktSetf f d s
  | .hdrCk => Sys2Proof.Machine.execHdrCk s
  | .payCk => Sys2Proof.Machine.execPayCk s
  | .pktValidate => Sys2Proof.Machine.execPktValidate s
  | .pktFinalize => Sys2Proof.Machine.execPktFinalize s
  | .rsmStep => Sys2Proof.Machine.execRsmStep s
  | .rsmPoll => Sys2Proof.Machine.execRsmPoll s
  | .rsmReset => Sys2Proof.Machine.execRsmReset s
  | .rxPush b => Sys2Proof.Machine.execRxPush b s
  | .linkCheck => Sys2Proof.Machine.execLinkCheck s
  | .linkSetest => Sys2Proof.Machine.execLinkSetest s
  | .tick => Sys2Proof.Machine.execTick s
  | .csrRd c => Sys2Proof.Machine.execCsrRd c s
  | .csrWr c d => Sys2Proof.Machine.execCsrWr c d s

end Sys2Proof.Machine
end

