-- ==== Sys2Proof/Decode.lean ====
section
/-! DEFINITION. The command encoding of 30_encoding.md: fields (R65), formats and their CMD masks
(R66), operand assembly (R67), the opcode map (R68), what is ILLEGAL (R69), and the encoder written
from the same tables. -/

namespace Sys2Proof

/-- The ten command formats of R66. -/
inductive Format where
  | n
  | b
  | k
  | t
  | td
  | pw
  | f
  | fd
  | c
  | cd
  deriving DecidableEq, Repr

/-- The CMD mask of a format (R66): a 1 at every bit that is opcode or must be 0. -/
def Format.mask : Format → Word
  | .n => 0xFFFFFFFF
  | .b => 0xFFFFFF00
  | .k => 0xFFFF0000
  | .t => 0xFF00FFFF
  | .td => 0xFF00FFFF
  | .pw => 0xFF000000
  | .f => 0xFF00FFFF
  | .fd => 0xFF00FFFF
  | .c => 0xFF00FFFF
  | .cd => 0xFF00FFFF

/-- Whether a format reads the DATA word (R66); every other format ignores it. -/
def Format.readsData : Format → Bool
  | .td | .fd | .cd => true
  | .n | .b | .k | .t | .pw | .f | .c => false

/-- The rows of the opcode map (R68). -/
inductive Opcode where
  | fifoPush | fifoPop | fifoPeek | fifoAvail | fifoReset
  | tmrInit | tmrElapsed | tmrTryfire | tmrRestart
  | pktRd | pktWr | pktGetf | pktSetf | hdrCk | payCk | pktValidate | pktFinalize
  | rsmStep | rsmPoll | rsmReset
  | rxPush | linkCheck | linkSetest | tick
  | csrRd | csrWr
  deriving DecidableEq, Repr

/-- The opcode map in the order of R68. -/
def Opcode.all : List Opcode :=
  [.fifoPush, .fifoPop, .fifoPeek, .fifoAvail, .fifoReset,
   .tmrInit, .tmrElapsed, .tmrTryfire, .tmrRestart,
   .pktRd, .pktWr, .pktGetf, .pktSetf, .hdrCk, .payCk, .pktValidate, .pktFinalize,
   .rsmStep, .rsmPoll, .rsmReset,
   .rxPush, .linkCheck, .linkSetest, .tick,
   .csrRd, .csrWr]

/-- The `OP` column of R68. -/
def Opcode.code : Opcode → Byte
  | .fifoPush => 0x10
  | .fifoPop => 0x11
  | .fifoPeek => 0x12
  | .fifoAvail => 0x13
  | .fifoReset => 0x14
  | .tmrInit => 0x20
  | .tmrElapsed => 0x21
  | .tmrTryfire => 0x22
  | .tmrRestart => 0x23
  | .pktRd => 0x30
  | .pktWr => 0x31
  | .pktGetf => 0x32
  | .pktSetf => 0x33
  | .hdrCk => 0x34
  | .payCk => 0x35
  | .pktValidate => 0x36
  | .pktFinalize => 0x37
  | .rsmStep => 0x40
  | .rsmPoll => 0x41
  | .rsmReset => 0x42
  | .rxPush => 0x50
  | .linkCheck => 0x51
  | .linkSetest => 0x52
  | .tick => 0x53
  | .csrRd => 0x60
  | .csrWr => 0x61

/-- The format column of R68. -/
def Opcode.format : Opcode → Format
  | .fifoPush => .b
  | .fifoPop => .n
  | .fifoPeek => .k
  | .fifoAvail => .n
  | .fifoReset => .n
  | .tmrInit => .td
  | .tmrElapsed => .t
  | .tmrTryfire => .t
  | .tmrRestart => .t
  | .pktRd => .k
  | .pktWr => .pw
  | .pktGetf => .f
  | .pktSetf => .fd
  | .hdrCk => .n
  | .payCk => .n
  | .pktValidate => .n
  | .pktFinalize => .n
  | .rsmStep => .n
  | .rsmPoll => .n
  | .rsmReset => .n
  | .rxPush => .b
  | .linkCheck => .n
  | .linkSetest => .n
  | .tick => .n
  | .csrRd => .c
  | .csrWr => .cd

/-- The `OP` field, CMD[31:24] (R65). -/
def opField (cmd : Word) : Byte := cmd.extractLsb' 24 8

/-- The `A` field, CMD[23:16] (R65). -/
def aField (cmd : Word) : Byte := cmd.extractLsb' 16 8

/-- The `IMM` field, CMD[15:0] (R65). -/
def immField (cmd : Word) : Half := cmd.extractLsb' 0 16

/-- `IMM[7:0]`, the byte operand of format B (R67). -/
def immByte (cmd : Word) : Byte := cmd.extractLsb' 0 8

/-- `match = OP << 24` (R66). -/
def Opcode.matchWord (o : Opcode) : Word := (o.code.setWidth 32) <<< 24

/-- R66: a CMD word selects a row iff `(CMD & mask) == match`. -/
def Opcode.selects (o : Opcode) (cmd : Word) : Bool := cmd &&& o.format.mask == o.matchWord

/-- Why a CMD word selects no row (R69). Both are the ILLEGAL outcome. -/
inductive DecodeError where
  /-- `OP` is assigned to no command. -/
  | unknownOpcode (op : Byte)
  /-- `OP` is assigned, and a must-be-0 field of its format is not 0. -/
  | reservedFieldNonZero (o : Opcode)
  deriving DecidableEq, Repr

/-- R67: each operand is taken straight from its field. -/
def Opcode.build (o : Opcode) (cmd data : Word) : Instr :=
  match o with
  | .fifoPush => .fifoPush (immByte cmd)
  | .fifoPop => .fifoPop
  | .fifoPeek => .fifoPeek (immField cmd)
  | .fifoAvail => .fifoAvail
  | .fifoReset => .fifoReset
  | .tmrInit => .tmrInit (aField cmd) data
  | .tmrElapsed => .tmrElapsed (aField cmd)
  | .tmrTryfire => .tmrTryfire (aField cmd)
  | .tmrRestart => .tmrRestart (aField cmd)
  | .pktRd => .pktRd (immField cmd)
  | .pktWr => .pktWr (immField cmd) (aField cmd)
  | .pktGetf => .pktGetf (aField cmd)
  | .pktSetf => .pktSetf (aField cmd) data
  | .hdrCk => .hdrCk
  | .payCk => .payCk
  | .pktValidate => .pktValidate
  | .pktFinalize => .pktFinalize
  | .rsmStep => .rsmStep
  | .rsmPoll => .rsmPoll
  | .rsmReset => .rsmReset
  | .rxPush => .rxPush (immByte cmd)
  | .linkCheck => .linkCheck
  | .linkSetest => .linkSetest
  | .tick => .tick
  | .csrRd => .csrRd (aField cmd)
  | .csrWr => .csrWr (aField cmd) data

/-- The row whose `OP` a byte is (R71: a decoder reads `OP` and looks it up in R68). -/
def opcodeOf (op : Byte) : Option Opcode := Opcode.all.find? (fun o => o.code == op)

/-- R65 to R71: read the command from its two words, or say by name why it is ILLEGAL. -/
def decode (cmd data : Word) : Except DecodeError Instr :=
  match opcodeOf (opField cmd) with
  | none => .error (.unknownOpcode (opField cmd))
  | some o =>
    if o.selects cmd then .ok (o.build cmd data) else .error (.reservedFieldNonZero o)

/-- The row of a command. -/
def Instr.opcode : Instr → Opcode
  | .fifoPush _ => .fifoPush
  | .fifoPop => .fifoPop
  | .fifoPeek _ => .fifoPeek
  | .fifoAvail => .fifoAvail
  | .fifoReset => .fifoReset
  | .tmrInit _ _ => .tmrInit
  | .tmrElapsed _ => .tmrElapsed
  | .tmrTryfire _ => .tmrTryfire
  | .tmrRestart _ => .tmrRestart
  | .pktRd _ => .pktRd
  | .pktWr _ _ => .pktWr
  | .pktGetf _ => .pktGetf
  | .pktSetf _ _ => .pktSetf
  | .hdrCk => .hdrCk
  | .payCk => .payCk
  | .pktValidate => .pktValidate
  | .pktFinalize => .pktFinalize
  | .rsmStep => .rsmStep
  | .rsmPoll => .rsmPoll
  | .rsmReset => .rsmReset
  | .rxPush _ => .rxPush
  | .linkCheck => .linkCheck
  | .linkSetest => .linkSetest
  | .tick => .tick
  | .csrRd _ => .csrRd
  | .csrWr _ _ => .csrWr

/-- The `A` field of a command: the timer, field or CSR number, or the byte of format PW; 0 where the
format says must be 0 (R66). -/
def Instr.aOperand : Instr → Byte
  | .tmrInit t _ => t
  | .tmrElapsed t => t
  | .tmrTryfire t => t
  | .tmrRestart t => t
  | .pktWr _ b => b
  | .pktGetf f => f
  | .pktSetf f _ => f
  | .csrRd c => c
  | .csrWr c _ => c
  | .fifoPush _ | .fifoPop | .fifoPeek _ | .fifoAvail | .fifoReset => 0
  | .pktRd _ | .hdrCk | .payCk | .pktValidate | .pktFinalize => 0
  | .rsmStep | .rsmPoll | .rsmReset => 0
  | .rxPush _ | .linkCheck | .linkSetest | .tick => 0

/-- The `IMM` field of a command: the byte of format B in `IMM[7:0]`, or the offset of formats K and
PW; 0 where the format says must be 0 (R66). -/
def Instr.immOperand : Instr → Half
  | .fifoPush b => b.setWidth 16
  | .rxPush b => b.setWidth 16
  | .fifoPeek k => k
  | .pktRd k => k
  | .pktWr k _ => k
  | .fifoPop | .fifoAvail | .fifoReset => 0
  | .tmrInit _ _ | .tmrElapsed _ | .tmrTryfire _ | .tmrRestart _ => 0
  | .pktGetf _ | .pktSetf _ _ | .hdrCk | .payCk | .pktValidate | .pktFinalize => 0
  | .rsmStep | .rsmPoll | .rsmReset => 0
  | .linkCheck | .linkSetest | .tick => 0
  | .csrRd _ | .csrWr _ _ => 0

/-- The DATA word of a command; 0 where the format ignores it (R72). -/
def Instr.dataOperand : Instr → Word
  | .tmrInit _ d => d
  | .pktSetf _ d => d
  | .csrWr _ d => d
  | .fifoPush _ | .fifoPop | .fifoPeek _ | .fifoAvail | .fifoReset => 0
  | .tmrElapsed _ | .tmrTryfire _ | .tmrRestart _ => 0
  | .pktRd _ | .pktWr _ _ | .pktGetf _ | .hdrCk | .payCk | .pktValidate | .pktFinalize => 0
  | .rsmStep | .rsmPoll | .rsmReset => 0
  | .rxPush _ | .linkCheck | .linkSetest | .tick => 0
  | .csrRd _ => 0

/-- A CMD word from its three fields (R65). -/
def cmdWord (op a : Byte) (imm : Half) : Word := op ++ a ++ imm

/-- The pair (CMD, DATA) of a command (R65 to R68, R72). -/
def encode (i : Instr) : Word × Word :=
  (cmdWord i.opcode.code i.aOperand i.immOperand, i.dataOperand)

/-- The two words of an instruction whose bits are `w`, CMD in bits 31..0 and DATA in bits 63..32,
every bit above `nbits` 0 (log 12). -/
def tableWords (nbits w : Nat) : Word × Word :=
  let v := w % 2 ^ nbits
  (BitVec.ofNat 32 v, BitVec.ofNat 32 (v / 2 ^ 32))

/-- The instruction that the decoder reads from the bits `w`; `none` where it refuses them. -/
def decodeTableWord (nbits w : Nat) : Option Instr :=
  match decode (tableWords nbits w).1 (tableWords nbits w).2 with
  | .ok i => some i
  | .error _ => none

end Sys2Proof
end

