-- ==== Sys2Proof/Machine/Ports.lean ====
section
/-! DEFINITION. What the ports do to the block, apart from a command's meaning: the RX-port step
(45_link.md R132), the ILLEGAL command (30_encoding.md R69), reset (70_reset_and_hazards.md R160,
R161), and how an event is sampled. -/

namespace Sys2Proof.Machine

/-- A HOST or RX step samples NOW once, when it starts (00_scope.md R13, 20_memory.md R55), and leaves
the later events to later steps. -/
def sampleNow (now : Word) (rest : List PortEvent) (s : State) : State :=
  { s with now := now, inputs := rest }

/-- 45_link.md R132: one byte on the RX port performs the body of RX_PUSH and does not write STATUS or
RESULT. -/
def rxPort (b : Byte) (s : State) : State := (receiveByte b s).2

/-- 30_encoding.md R69: a CMD word that selects no row is ILLEGAL. -/
def illegalCommand (s : State) : State := raiseErr .illegal s

/-- R160, R161: reset sets every piece of state to its reset value; it changes no parameter and does
not touch the NOW input. The later events stay to come. -/
def resetBlock (rest : List PortEvent) (s : State) : State :=
  { State.resetOf s.cfg with now := s.now, inputs := rest }

/-- The command of the words `ws` offered as the next event, at the NOW value `s` holds. -/
def offerCommand (ws : Word × Word) (s : State) : State :=
  { s with inputs := .host s.now ws.1 ws.2 :: s.inputs }

end Sys2Proof.Machine
end

