-- ==== Sys2Proof/Machine/Step.lean ====
section
/-! DEFINITION. One step of the block: the next port event, whole (20_memory.md R55, R57). -/

namespace Sys2Proof.Machine

/-- A command on the command port: the decoded command's meaning, or ILLEGAL (30_encoding.md R69). -/
def runCommand (cmd data : Word) (s : State) : Host.Outcome State Fault Refusal :=
  match decode cmd data with
  | .ok i => exec i s
  | .error _ => .next (illegalCommand s)

/-- One step takes the next port event. With none offered the block does nothing (60_exceptions.md
R159). A configuration that 00_scope.md R8 calls illegal is refused. -/
def step (s : State) : Host.Outcome State Fault Refusal :=
  if s.cfg.legal then
    match s.inputs with
    | [] => .next s
    | .host now cmd data :: rest => runCommand cmd data (sampleNow now rest s)
    | .rx now b :: rest => .next (rxPort b (sampleNow now rest s))
    | .reset :: rest => .next (resetBlock rest s)
  else .refused .illegalConfiguration

/-- `s` with the command of the bits `w` offered as the next event, so that the next step runs it
(log 1, log 12). -/
def State.withFetchWord (s : State) (nbits w : Nat) : State :=
  offerCommand (tableWords nbits w) s

end Sys2Proof.Machine
end

