-- ==== Sys2Proof/Machine/Assembler.lean ====
section
/-! DEFINITION. The assembler syntax of 30_encoding.md R72 and the pseudo-commands of R73. A line is a
list of characters; assembling it gives the commands it stands for, or nothing where the syntax does
not admit it (log 11). -/

namespace Sys2Proof

/-! ### Pseudo-commands -/

/-- The commands that a pseudo-command expands to (R73). -/
def Pseudo.expand : Pseudo → List Instr
  | .nop => [.fifoAvail]
  | .cntClr c => [.csrWr c 0]
  | .wdogInit d => [.tmrInit 0 d]
  | .pktLoad k bs => loadFrom k bs
  | .drain bs => bs.map .rxPush
where
  /-- `PKT_WR k, b0 ; PKT_WR k+1, b1 ; ...` -/
  loadFrom (k : Half) : List Byte → List Instr
    | [] => []
    | b :: bs => .pktWr k b :: loadFrom (k + 1) bs

/-! ### Text -/

/-- The text before the first `c`, and the pieces after it. -/
def splitAt (c : Char) : List Char → List (List Char)
  | [] => [[]]
  | x :: xs =>
    if x = c then [] :: splitAt c xs
    else
      match splitAt c xs with
      | [] => [[x]]
      | p :: ps => (x :: p) :: ps

/-- A space or a tab (log 11). -/
def isBlank (x : Char) : Bool := x == ' ' || x == '\t'

/-- The text without the blanks at its two ends. -/
def trimBlanks (l : List Char) : List Char :=
  ((l.dropWhile isBlank).reverse.dropWhile isBlank).reverse

/-- The value of a digit in base 16, letters of either case; `none` for another character. -/
def digitValue (x : Char) : Option Nat :=
  if 48 ≤ x.toNat ∧ x.toNat ≤ 57 then some (x.toNat - 48)
  else if 97 ≤ x.toNat ∧ x.toNat ≤ 102 then some (x.toNat - 87)
  else if 65 ≤ x.toNat ∧ x.toNat ≤ 70 then some (x.toNat - 55)
  else none

/-- Digits read on from the value `acc`. -/
def digitsValue (base : Nat) (acc : Nat) : List Char → Option Nat
  | [] => some acc
  | x :: xs =>
    match digitValue x with
    | some v => if v < base then digitsValue base (acc * base + v) xs else none
    | none => none

/-- A number, decimal or `0x` hexadecimal, with at least one digit. -/
def readNumber (l : List Char) : Option Nat :=
  match l with
  | [] => none
  | '0' :: 'x' :: ds => if ds.isEmpty then none else digitsValue 16 0 ds
  | ds => digitsValue 10 0 ds

/-- A number that fits the field of `w` bits it is written to. -/
def readField (w : Nat) (l : List Char) : Option (BitVec w) :=
  match readNumber l with
  | some n => if n < 2 ^ w then some (BitVec.ofNat w n) else none
  | none => none

/-- The value that a name has in a table of names. -/
def lookupName (table : List (String × Byte)) (l : List Char) : Option Byte :=
  match table.find? (fun p => decide (p.1.toList = l)) with
  | some p => some p.2
  | none => none

/-- A timer operand, written `t<n>`. -/
def readTimer (l : List Char) : Option Byte :=
  match l with
  | 't' :: ds => readField 8 ds
  | _ => none

/-- The field names of 20_memory.md R54. -/
def fieldNames : List (String × Byte) :=
  [("REV", 0), ("MAC_LO", 1), ("MAC_HI", 2), ("METHOD", 3), ("RPC", 4), ("DLEN", 5),
   ("HCK", 6), ("PCK", 7), ("RESP", 8)]

/-- A field operand: its name, or a number. -/
def readFieldOperand (l : List Char) : Option Byte :=
  match lookupName fieldNames l with
  | some f => some f
  | none => readField 8 l

/-- The names of the CSRs of 10_state.md R34 that have one number. -/
def csrNames : List (String × Byte) :=
  [("CFG_REV", 0x00), ("STATUS", 0x01), ("FIFO_COUNT", 0x02), ("JUNK_CNT", 0x03),
   ("OVF_CNT", 0x04), ("HDRFAIL_CNT", 0x05), ("PAYFAIL_CNT", 0x06), ("FRAME_CNT", 0x07),
   ("TIMEOUT_CNT", 0x08), ("MAC_LO", 0x09), ("MAC_HI", 0x0A), ("RSM_LEN", 0x0B),
   ("CAP_FIFO", 0x0C), ("CAP_FRAME", 0x0D), ("CAP_TIMERS", 0x0E)]

/-- `NAME[t]`, the CSR `base + t` of timer `t`; at most 16 timers exist (00_scope.md R8). -/
def readTimerCsr (name : String) (base : Byte) (l : List Char) : Option Byte :=
  match splitAt '[' l with
  | [n, rest] =>
    match splitAt ']' rest with
    | [t, []] =>
      if n = name.toList then
        match readField 4 t with
        | some v => some (base + v.setWidth 8)
        | none => none
      else none
    | _ => none
  | _ => none

/-- A CSR operand: its name, or a number. -/
def readCsr (l : List Char) : Option Byte :=
  match lookupName csrNames l, readTimerCsr "TMR_LAST" 0x20 l, readTimerCsr "TMR_INTV" 0x30 l with
  | some c, _, _ => some c
  | none, some c, _ => some c
  | none, none, some c => some c
  | none, none, none => readField 8 l

/-- The mnemonics of R68. -/
def opcodeNames : List (String × Opcode) :=
  [("FIFO_PUSH", .fifoPush), ("FIFO_POP", .fifoPop), ("FIFO_PEEK", .fifoPeek),
   ("FIFO_AVAIL", .fifoAvail), ("FIFO_RESET", .fifoReset),
   ("TMR_INIT", .tmrInit), ("TMR_ELAPSED", .tmrElapsed), ("TMR_TRYFIRE", .tmrTryfire),
   ("TMR_RESTART", .tmrRestart),
   ("PKT_RD", .pktRd), ("PKT_WR", .pktWr), ("PKT_GETF", .pktGetf), ("PKT_SETF", .pktSetf),
   ("HDR_CK", .hdrCk), ("PAY_CK", .payCk), ("PKT_VALIDATE", .pktValidate),
   ("PKT_FINALIZE", .pktFinalize),
   ("RSM_STEP", .rsmStep), ("RSM_POLL", .rsmPoll), ("RSM_RESET", .rsmReset),
   ("RX_PUSH", .rxPush), ("LINK_CHECK", .linkCheck), ("LINK_SETEST", .linkSetest), ("TICK", .tick),
   ("CSR_RD", .csrRd), ("CSR_WR", .csrWr)]

/-- The row that a mnemonic names. -/
def opcodeNamed (l : List Char) : Option Opcode :=
  match opcodeNames.find? (fun p => decide (p.1.toList = l)) with
  | some p => some p.2
  | none => none

/-- The command of a row with the operands `a`, `imm` and `d`. -/
def Opcode.withOperands (o : Opcode) (a : Byte) (imm : Half) (d : Word) : Instr :=
  o.build (cmdWord o.code a imm) d

/-- Read both operands, or neither. -/
def bothRead {α β : Type} (x : Option α) (y : Option β) : Option (α × β) :=
  match x, y with
  | some a, some b => some (a, b)
  | _, _ => none

/-- The operands of a row, in the order of R72 for its format. -/
def readOperands (o : Opcode) (ops : List (List Char)) : Option Instr :=
  match o.format, ops with
  | .n, [] => some (o.withOperands 0 0 0)
  | .b, [x] => (readField 8 x).map fun b => o.withOperands 0 (b.setWidth 16) 0
  | .k, [x] => (readField 16 x).map fun k => o.withOperands 0 k 0
  | .t, [x] => (readTimer x).map fun t => o.withOperands t 0 0
  | .td, [x, y] => (bothRead (readTimer x) (readField 32 y)).map fun p => o.withOperands p.1 0 p.2
  | .pw, [x, y] => (bothRead (readField 16 x) (readField 8 y)).map fun p => o.withOperands p.2 p.1 0
  | .f, [x] => (readFieldOperand x).map fun f => o.withOperands f 0 0
  | .fd, [x, y] =>
    (bothRead (readFieldOperand x) (readField 32 y)).map fun p => o.withOperands p.1 0 p.2
  | .c, [x] => (readCsr x).map fun c => o.withOperands c 0 0
  | .cd, [x, y] => (bothRead (readCsr x) (readField 32 y)).map fun p => o.withOperands p.1 0 p.2
  | _, _ => none

/-- Read every byte of a list of operands, or none. -/
def readBytes : List (List Char) → Option (List Byte)
  | [] => some []
  | x :: xs =>
    match readField 8 x, readBytes xs with
    | some b, some bs => some (b :: bs)
    | _, _ => none

/-- The pseudo-command of a mnemonic and its operands (R73). -/
def readPseudo (name : List Char) (ops : List (List Char)) : Option Pseudo :=
  if name = "NOP".toList then
    match ops with
    | [] => some .nop
    | _ => none
  else if name = "CNT_CLR".toList then
    match ops with
    | [x] => (readCsr x).map .cntClr
    | _ => none
  else if name = "WDOG_INIT".toList then
    match ops with
    | [x] => (readField 32 x).map .wdogInit
    | _ => none
  else if name = "PKT_LOAD".toList then
    match ops with
    | x :: xs => (bothRead (readField 16 x) (readBytes xs)).map fun p => .pktLoad p.1 p.2
    | [] => none
  else if name = "DRAIN".toList then (readBytes ops).map .drain
  else none

/-- The mnemonic of a line and its operands. -/
def splitLine (line : List Char) : List Char × List (List Char) :=
  let l := trimBlanks line
  let rest := trimBlanks (l.dropWhile fun x => !isBlank x)
  (l.takeWhile fun x => !isBlank x,
    if rest.isEmpty then [] else (splitAt ',' rest).map trimBlanks)

/-- The commands that a line of assembler text stands for (R72, R73). -/
def assemble (line : List Char) : Option (List Instr) :=
  let p := splitLine line
  match opcodeNamed p.1 with
  | some o => (readOperands o p.2).map fun i => [i]
  | none =>
    match readPseudo p.1 p.2 with
    | some q => if q.wf then some q.expand else none
    | none => none

end Sys2Proof
end

