-- ==== Sys2Proof/Safety.lean ====
section
/-! DEFINITION. What a good state of the block is: the invariant that reset establishes and every step
keeps, in the terms the statements use, and the validity of a frame (20_memory.md R53). -/

namespace Sys2Proof.Machine

/-- 10_state.md R20, R24: the cursors and the count are in range and agree. -/
abbrev FifoGood (s : State) : Prop :=
  s.fifoRd.toNat < s.cfg.fifoCap ∧ s.fifoWr.toNat < s.cfg.fifoCap ∧
  s.fifoCount.toNat ≤ s.cfg.fifoCap ∧
  s.fifoWr.toNat = (s.fifoRd.toNat + s.fifoCount.toNat) % s.cfg.fifoCap

/-- Both byte stores are in canonical form and list no index outside their space (20_memory.md R40). -/
abbrev StorageGood (s : State) : Prop :=
  Memory.wf s.fifoMem ∧ Memory.below s.fifoMem s.cfg.fifoCap ∧
  Memory.wf s.pkt ∧ Memory.below s.pkt s.cfg.maxFrame

/-- 10_state.md R29, R30: `rsm_state` is never 3 after a step; `rsm_len` is a legal length in
PayloadPending and 0 elsewhere. -/
abbrev RsmGood (s : State) : Prop :=
  s.rsmState ≠ .ready ∧
  (s.rsmState = .payloadPending → lengthLegal s.cfg s.rsmLen = true) ∧
  (s.rsmState ≠ .payloadPending → s.rsmLen = 0)

/-- 10_state.md R32: the timer file holds `P_NTIMERS` timers. -/
abbrev TimersGood (s : State) : Prop := s.timers.length = s.cfg.nTimers

/-- The status codes that the block produces (30_encoding.md R70). -/
def producedCodes : List Byte :=
  [0x00, 0x01, 0x02, 0x03, 0x04, 0x05, 0x06, 0x07, 0x10, 0x11, 0x12, 0x13, 0x14,
   0xE0, 0xE1, 0xE2, 0xE3, 0xE4]

/-- R70: every other value is never produced. -/
abbrev StatusGood (s : State) : Prop := s.status ∈ producedCodes

/-- The invariant of the block. -/
structure Inv (s : State) : Prop where
  legal : s.cfg.legal = true
  fifo : FifoGood s
  storage : StorageGood s
  rsm : RsmGood s
  timers : TimersGood s
  status : StatusGood s

/-! ### Frames as byte lists -/

/-- The data_length of a frame's bytes, `Wire2(F[12..13])` (20_memory.md R47). -/
abbrev lengthOf (c : Config) (F : List Byte) : Half := wire2 c.wireOrder (F.getD 12 0) (F.getD 13 0)

/-- The first three conditions of 20_memory.md R53: revision tag, header check (R51), legal
data_length (R49). -/
abbrev HeaderGood (c : Config) (rev : Byte) (F : List Byte) : Prop :=
  F.getD 0 0 = rev ∧ F.getD 14 0 = ck c.ckAlg (F.take 14) ∧
    16 ≤ (lengthOf c F).toNat ∧ (lengthOf c F).toNat ≤ c.maxFrame

/-- The fourth condition of R53: the payload check (R52) of the frame that begins `F`. -/
abbrev PayloadGood (c : Config) (F : List Byte) : Prop :=
  F.getD ((lengthOf c F).toNat - 1) 0 =
    ck c.ckAlg ((F.drop 15).take ((lengthOf c F).toNat - 16))

/-- 20_memory.md R53 `Valid(F)`, `F` being exactly the bytes of the frame. -/
abbrev ValidFrame (c : Config) (rev : Byte) (F : List Byte) : Prop :=
  HeaderGood c rev F ∧ PayloadGood c F ∧ F.length = (lengthOf c F).toNat

/-- The condition of 44_reassembler.md R124 item 5 on a garbage byte, for the stream that begins with
it: it differs from the tag, or it starts a window whose header fails, or it starts a header that
passes whose bytes all lie within the stream and whose frame fails the payload check. -/
abbrev Skippable (c : Config) (rev : Byte) (stream : List Byte) : Prop :=
  stream.getD 0 0 ≠ rev ∨ ¬ HeaderGood c rev stream ∨
    ((lengthOf c stream).toNat ≤ stream.length ∧ ¬ PayloadGood c stream)

/-! ### What a command may do -/

/-- The outcome codes that 30_encoding.md R70 names for a command, and the error codes that
60_exceptions.md R151 names for it. ILLEGAL is the decoder's. -/
def producedBy : Opcode → List Byte
  | .fifoPush => [0x00, 0x02]
  | .fifoPop => [0x00, 0x01]
  | .fifoPeek => [0x00, 0x01]
  | .fifoAvail => [0x00]
  | .fifoReset => [0x00]
  | .tmrInit => [0x00, 0xE1]
  | .tmrElapsed => [0x00, 0xE1]
  | .tmrTryfire => [0x06, 0x07, 0xE1]
  | .tmrRestart => [0x00, 0xE1]
  | .pktRd => [0x00, 0xE2]
  | .pktWr => [0x00, 0xE2]
  | .pktGetf => [0x00, 0xE1, 0xE3]
  | .pktSetf => [0x00, 0xE1, 0xE3]
  | .hdrCk => [0x00]
  | .payCk => [0x00, 0xE3]
  | .pktValidate => [0x10, 0x11, 0x12, 0x13, 0x14]
  | .pktFinalize => [0x00, 0xE3]
  | .rsmStep => [0x03, 0x04, 0x05]
  | .rsmPoll => [0x03, 0x04]
  | .rsmReset => [0x00]
  | .rxPush => [0x00, 0x02]
  | .linkCheck => [0x06, 0x07]
  | .linkSetest => [0x00]
  | .tick => [0x03, 0x04]
  | .csrRd => [0x00, 0xE1]
  | .csrWr => [0x00, 0xE1, 0xE4]

/-- Two states that a program cannot tell apart (10_state.md R36, R24): the same bytes held, and
everything else equal but the storage and the cursors behind them. -/
abbrev SameView (s t : State) : Prop :=
  fifoHeld s = fifoHeld t ∧
    t = { s with fifoMem := t.fifoMem, fifoRd := t.fifoRd, fifoWr := t.fifoWr }

end Sys2Proof.Machine
end

