-- ==== Sys2Proof/Certificates/Slice0/Obligations.lean ====
section
/-! DEFINITION. The statements for the provers. Each docstring names the rule of spec/ it formalises. -/

open Sys2Proof Sys2Proof.Machine

/-! ### Encoding -/

/-- 30_encoding.md R65 to R68: every command, with every operand the encoding admits, decodes from the
words the encoder writes. -/
def Obligations.DecodeInvertsEncode : Prop :=
  ∀ i : Instr, decode (encode i).1 (encode i).2 = .ok i

/-- 30_encoding.md R65 to R67: a CMD word that decodes holds nothing but the command it decodes to, and
so does the DATA word of a format that reads it. -/
def Obligations.DecodedWordsAreTheEncoding : Prop :=
  ∀ (cmd data : Word) (i : Instr), decode cmd data = .ok i →
    (encode i).1 = cmd ∧ (i.opcode.format.readsData = true → (encode i).2 = data)

/-- 30_encoding.md R69: exactly the words that select no row of R68 are ILLEGAL, these are the words
whose `OP` lies in the listed ranges or whose must-be-0 bits are not all 0, and the step on an ILLEGAL
command sets STATUS 0xE0 and RESULT 0 and changes nothing else (the event is taken; `now` is the input's
value, recorded in no register, log 2). -/
def Obligations.IllegalIffSelectsNoRow : Prop :=
  ∀ (cmd data : Word),
    ((∃ e, decode cmd data = .error e) ↔
      ∀ o : Opcode, cmd &&& o.format.mask ≠ (o.code.setWidth 32) <<< 24) ∧
    ((∃ e, decode cmd data = .error e) ↔
      (let op := cmd.toNat / 2 ^ 24
       op ≤ 0x0F ∨ (0x15 ≤ op ∧ op ≤ 0x1F) ∨ (0x24 ≤ op ∧ op ≤ 0x2F) ∨
         (0x38 ≤ op ∧ op ≤ 0x3F) ∨ (0x43 ≤ op ∧ op ≤ 0x4F) ∨ (0x54 ≤ op ∧ op ≤ 0x5F) ∨
         0x62 ≤ op) ∨
      ∃ o : Opcode, cmd.toNat / 2 ^ 24 = o.code.toNat ∧
        cmd &&& (o.format.mask &&& 0x00FFFFFF) ≠ 0) ∧
    ((∃ e, decode cmd data = .error e) →
      ∀ (s : State) (now : Word) (rest : List PortEvent), s.cfg.legal = true →
        s.inputs = .host now cmd data :: rest →
        step s = .next { s with now := now, inputs := rest, status := 0xE0, result := 0 })

/-- 30_encoding.md R72: the ten example lines and encodings of its table. -/
def Obligations.AssemblerExamples : Prop :=
  (assemble "RSM_POLL".toList).map (·.map encode) = some [(0x41000000, 0)] ∧
  (assemble "FIFO_PUSH 0x03".toList).map (·.map encode) = some [(0x10000003, 0)] ∧
  (assemble "FIFO_PEEK 14".toList).map (·.map encode) = some [(0x1200000E, 0)] ∧
  (assemble "TMR_TRYFIRE t1".toList).map (·.map encode) = some [(0x22010000, 0)] ∧
  (assemble "TMR_INIT t1, 100".toList).map (·.map encode) = some [(0x20010000, 0x64)] ∧
  (assemble "PKT_WR 12, 0x10".toList).map (·.map encode) = some [(0x3110000C, 0)] ∧
  (assemble "PKT_GETF DLEN".toList).map (·.map encode) = some [(0x32050000, 0)] ∧
  (assemble "PKT_SETF DLEN, 16".toList).map (·.map encode) = some [(0x33050000, 0x10)] ∧
  (assemble "CSR_RD JUNK_CNT".toList).map (·.map encode) = some [(0x60030000, 0)] ∧
  (assemble "CSR_WR MAC_LO, 0x44332211".toList).map (·.map encode) =
    some [(0x61090000, 0x44332211)]

/-- 30_encoding.md R73: what the pseudo-commands expand to; `PKT_LOAD` writes its `i`-th byte at the
offset `k + i`. -/
def Obligations.PseudoExpansions : Prop :=
  Pseudo.nop.expand = [.fifoAvail] ∧
  (∀ c, (Pseudo.cntClr c).expand = [.csrWr c 0]) ∧
  (∀ d, (Pseudo.wdogInit d).expand = [.tmrInit 0 d]) ∧
  (∀ (k : Half) (bs : List Byte), (Pseudo.pktLoad k bs).wf = true →
    (Pseudo.pktLoad k bs).expand.length = bs.length ∧
    ∀ i b, bs[i]? = some b →
      ∃ ki : Half, ki.toNat = k.toNat + i ∧
        (Pseudo.pktLoad k bs).expand[i]? = some (.pktWr ki b)) ∧
  (∀ (bs : List Byte) (i : Nat), (Pseudo.drain bs).expand[i]? = bs[i]?.map .rxPush)

/-- A few words written out from 30_encoding.md R66 and R68, one for each family, decode to the command
they stand for. -/
def Obligations.SampleWordsDecode : Prop :=
  decode 0x100000A5 0 = .ok (.fifoPush 0xA5) ∧
  decode 0x1200BEEF 0 = .ok (.fifoPeek 0xBEEF) ∧
  decode 0x20030000 0xDEADBEEF = .ok (.tmrInit 3 0xDEADBEEF) ∧
  decode 0x31AB000F 0 = .ok (.pktWr 0x000F 0xAB) ∧
  decode 0x33050000 0x10 = .ok (.pktSetf 5 0x10) ∧
  decode 0x41000000 0 = .ok .rsmPoll ∧
  decode 0x53000000 0 = .ok .tick ∧
  decode 0x61090000 0x44332211 = .ok (.csrWr 9 0x44332211)

/-! ### The step and the ports -/

/-- 30_encoding.md R68 and 20_memory.md R55: a HOST event whose words decode to a command runs that
command, whole, at the event's NOW; the event is taken and the later ones stay to come. -/
def Obligations.StepRunsDecodedCommand : Prop :=
  ∀ (s : State) (now cmd data : Word) (rest : List PortEvent) (i : Instr),
    s.cfg.legal = true → s.inputs = .host now cmd data :: rest → decode cmd data = .ok i →
    step s = exec i { s with now := now, inputs := rest }

/-- 60_exceptions.md R159: the block does nothing without a command or an RX byte. -/
def Obligations.IdleBlockHoldsItsState : Prop :=
  ∀ s : State, s.cfg.legal = true → s.inputs = [] → step s = .next s

/-- 00_scope.md R8: exactly the illegal configurations are refused, and nothing else is. -/
def Obligations.RefusedIffConfigurationIllegal : Prop :=
  ∀ s : State,
    (∃ r, step s = .refused r) ↔
      ¬ (16 ≤ s.cfg.maxFrame ∧ s.cfg.maxFrame ≤ s.cfg.fifoCap ∧ s.cfg.fifoCap ≤ 65535 ∧
        1 ≤ s.cfg.nTimers ∧ s.cfg.nTimers ≤ 16)

/-- 45_link.md R132: an RX-port step does exactly what RX_PUSH does to the block, except that it writes
neither STATUS nor RESULT; it always completes. -/
def Obligations.RxPortIsRxPushWithoutResponse : Prop :=
  ∀ (s : State) (now : Word) (b : Byte) (rest : List PortEvent),
    s.cfg.legal = true → s.inputs = .rx now b :: rest →
    ∃ u, exec (.rxPush b) { s with now := now, inputs := rest } = .next u ∧
      step s = .next { u with status := s.status, result := s.result }

/-- 70_reset_and_hazards.md R160, R161 and 10_state.md R37: a reset step sets every piece of state to
its reset value and changes neither the parameters nor the NOW input. (That reset is an event among
the others is the model's choice, log 4.) -/
def Obligations.ResetStepSetsEveryPieceOfState : Prop :=
  ∀ (s : State) (rest : List PortEvent),
    s.cfg.legal = true → s.inputs = .reset :: rest →
    ∃ t, step s = .next t ∧
      (∀ a, Memory.read t.fifoMem a = 0x00) ∧ t.fifoRd = 0 ∧ t.fifoWr = 0 ∧ t.fifoCount = 0 ∧
      (∀ i, pktByte t i = 0x00) ∧ t.pktResp = false ∧
      t.rsmState = .seeking ∧ t.rsmLen = 0 ∧
      t.timers.length = s.cfg.nTimers ∧
      (∀ j, j < s.cfg.nTimers →
        t.timers[j]? = some { last := 0, intv := if j = 0 then s.cfg.linkTimeout else 0 }) ∧
      t.linkEst = false ∧ t.cfgRev = s.cfg.protoRev ∧ t.devMac = 0 ∧
      t.junkCnt = 0 ∧ t.ovfCnt = 0 ∧ t.hdrfailCnt = 0 ∧ t.payfailCnt = 0 ∧ t.frameCnt = 0 ∧
      t.timeoutCnt = 0 ∧ t.status = 0x00 ∧ t.result = 0 ∧
      t.cfg = s.cfg ∧ t.now = s.now ∧ t.inputs = rest

/-! ### The invariant and rules of the whole machine -/

/-- The state after reset satisfies the invariant, in every legal configuration. -/
def Obligations.ResetEstablishesInvariant : Prop :=
  Inv State.reset ∧ ∀ c : Config, c.legal = true → Inv (State.resetOf c)

/-- From every state that satisfies the invariant, a step that answers a next state keeps it
(10_state.md R20, R24, R29, R30, R32, 30_encoding.md R70). -/
def Obligations.StepKeepsInvariant : Prop :=
  ∀ s t : State, Inv s → step s = .next t → Inv t

/-- From every state that satisfies the invariant, the step answers a next state: the cases that
93_implementation_defined.md section 1 calls unreachable are, and no command is ever refused. -/
def Obligations.StepNeverStops : Prop :=
  ∀ s : State, Inv s → ∃ t, step s = .next t

/-- 10_state.md R24: every command keeps the agreement of the cursors and the count, whatever the rest
of the state. -/
def Obligations.EveryCommandKeepsFifoCursors : Prop :=
  ∀ (i : Instr) (s t : State), s.cfg.legal = true → FifoGood s → exec i s = .next t →
    t.fifoWr.toNat = (t.fifoRd.toNat + t.fifoCount.toNat) % s.cfg.fifoCap ∧
      t.fifoCount.toNat ≤ s.cfg.fifoCap ∧ t.fifoRd.toNat < s.cfg.fifoCap ∧
      t.fifoWr.toNat < s.cfg.fifoCap

/-- 10_state.md R24, R36: the storage outside the held bytes and the absolute cursor values affect no
result: two states with the same held bytes answer every command alike, and stay alike. -/
def Obligations.CursorsAndFreeSlotsAreUnobservable : Prop :=
  ∀ (i : Instr) (s t s' : State), Inv s → Inv t → SameView s t → exec i s = .next s' →
    ∃ t', exec i t = .next t' ∧ SameView s' t'

/-- 60_exceptions.md R150: a command that ends in an error code has RESULT 0 and changes nothing but
the response registers. -/
def Obligations.ErrorsArePrecise : Prop :=
  ∀ (i : Instr) (s t : State), exec i s = .next t → 0xE0 ≤ t.status.toNat →
    t = { s with status := t.status, result := 0 }

/-- 30_encoding.md R70 and 60_exceptions.md R151: a command answers only the codes that the tables
name for it. -/
def Obligations.CommandsProduceOnlyTheirCodes : Prop :=
  ∀ (i : Instr) (s t : State), exec i s = .next t → t.status ∈ producedBy i.opcode

/-- 20_memory.md R56: the nine commands without side effects complete in every state, change nothing
but the response registers, and answer the same when issued again. -/
def Obligations.ReadOnlyCommandsRepeat : Prop :=
  ∀ (i : Instr) (s : State),
    i.opcode ∈ ([.fifoPeek, .fifoAvail, .pktRd, .pktGetf, .hdrCk, .payCk, .pktValidate,
      .tmrElapsed, .csrRd] : List Opcode) →
    ∃ t, exec i s = .next t ∧ t = { s with status := t.status, result := t.result } ∧
      exec i t = .next t

/-- Which commands can change which state: the packet buffer (10_state.md R25), the response flag
(R26), CFG_REV and DEV_MAC (R27, R28), the reassembler (R30), the counters (R31), the timers (R32),
the link flag (R33) and the FIFO (20_memory.md R40). No command changes a parameter, the NOW it sampled
or the events to come (00_scope.md R6, R13). -/
def Obligations.OnlyTheNamedCommandsChangeState : Prop :=
  ∀ (i : Instr) (s t : State), exec i s = .next t →
    (t.cfg = s.cfg ∧ t.now = s.now ∧ t.inputs = s.inputs) ∧
    (i.opcode ∉ ([.pktWr, .pktSetf, .pktFinalize, .rsmStep, .rsmPoll, .tick] : List Opcode) →
      t.pkt = s.pkt) ∧
    (i.opcode ∉ ([.pktSetf, .rsmStep, .rsmPoll, .tick] : List Opcode) → t.pktResp = s.pktResp) ∧
    (i.opcode ≠ .csrWr → t.cfgRev = s.cfgRev ∧ t.devMac = s.devMac) ∧
    (i.opcode ∉ ([.rsmStep, .rsmPoll, .rsmReset, .linkCheck, .tick] : List Opcode) →
      t.rsmState = s.rsmState ∧ t.rsmLen = s.rsmLen) ∧
    (i.opcode ∉ ([.rsmStep, .rsmPoll, .tick, .csrWr] : List Opcode) →
      t.junkCnt = s.junkCnt ∧ t.hdrfailCnt = s.hdrfailCnt ∧ t.payfailCnt = s.payfailCnt ∧
        t.frameCnt = s.frameCnt) ∧
    (i.opcode ∉ ([.fifoPush, .rxPush, .csrWr] : List Opcode) → t.ovfCnt = s.ovfCnt) ∧
    (i.opcode ∉ ([.linkCheck, .tick, .csrWr] : List Opcode) → t.timeoutCnt = s.timeoutCnt) ∧
    (i.opcode ∉ ([.tmrInit, .tmrTryfire, .tmrRestart, .rxPush, .linkCheck, .tick] : List Opcode) →
      t.timers = s.timers) ∧
    (i.opcode ∉ ([.linkSetest, .linkCheck, .tick] : List Opcode) → t.linkEst = s.linkEst) ∧
    (i.opcode ∉ ([.fifoPush, .fifoPop, .fifoReset, .rsmStep, .rsmPoll, .rxPush, .linkCheck,
        .tick] : List Opcode) →
      t.fifoMem = s.fifoMem ∧ t.fifoRd = s.fifoRd ∧ t.fifoWr = s.fifoWr ∧
        t.fifoCount = s.fifoCount)

/-! ### FIFO commands -/

/-- 41_fifo.md R82, R84: FIFO_PUSH with room appends its byte, by one stored byte at the write cursor,
moves that cursor on by one modulo `P_FIFO_CAP`, and answers the new count; on a full FIFO it drops its byte, counts the drop and answers OVERFLOW with
`P_FIFO_CAP`. Nothing else changes. -/
def Obligations.FifoPushAppendsOrDrops : Prop :=
  ∀ (s : State) (b : Byte), Inv s →
    (s.fifoCount.toNat < s.cfg.fifoCap →
      ∃ t, exec (.fifoPush b) s = .next t ∧ fifoHeld t = fifoHeld s ++ [b] ∧
        t.status = 0x00 ∧ t.result.toNat = s.fifoCount.toNat + 1 ∧
        t = { s with
          fifoMem := t.fifoMem
          fifoWr := t.fifoWr
          fifoCount := s.fifoCount + 1
          status := t.status
          result := t.result } ∧
        t.fifoWr.toNat = (s.fifoWr.toNat + 1) % s.cfg.fifoCap ∧
        Memory.read t.fifoMem s.fifoWr.toNat = b ∧
        ∀ a, a ≠ s.fifoWr.toNat → Memory.read t.fifoMem a = Memory.read s.fifoMem a) ∧
    (s.fifoCount.toNat = s.cfg.fifoCap →
      exec (.fifoPush b) s = .next { s with
        ovfCnt := s.ovfCnt + 1
        status := 0x02
        result := BitVec.ofNat 32 s.cfg.fifoCap })

/-- 41_fifo.md R81, R85: FIFO_POP answers the oldest byte, leaves the others in order and moves the read
cursor on by one modulo `P_FIFO_CAP`, the storage as it was; on an empty
FIFO it answers EMPTY with RESULT 0 and changes nothing else. -/
def Obligations.FifoPopTakesTheOldest : Prop :=
  ∀ s : State, Inv s →
    (fifoHeld s = [] → exec .fifoPop s = .next { s with status := 0x01, result := 0 }) ∧
    (∀ b bs, fifoHeld s = b :: bs →
      ∃ t, exec .fifoPop s = .next t ∧ fifoHeld t = bs ∧
        t.status = 0x00 ∧ t.result.toNat = b.toNat ∧
        t.fifoRd.toNat = (s.fifoRd.toNat + 1) % s.cfg.fifoCap ∧
        t = { s with
          fifoRd := t.fifoRd
          fifoCount := s.fifoCount - 1
          status := t.status
          result := t.result })

/-- 41_fifo.md R80, R86, R87: FIFO_PEEK answers the stored byte at distance `k` from the read cursor, EMPTY
with RESULT 0 beyond the held bytes; FIFO_AVAIL answers how many are held. Neither changes anything else. -/
def Obligations.FifoPeekAndAvailRead : Prop :=
  ∀ (s : State) (k : Half),
    (k.toNat < s.fifoCount.toNat →
      exec (.fifoPeek k) s = .next { s with
        status := 0x00
        result :=
          (Memory.read s.fifoMem ((s.fifoRd.toNat + k.toNat) % s.cfg.fifoCap)).setWidth 32 }) ∧
    (s.fifoCount.toNat ≤ k.toNat →
      exec (.fifoPeek k) s = .next { s with status := 0x01, result := 0 }) ∧
    exec .fifoAvail s = .next { s with
      status := 0x00
      result := BitVec.ofNat 32 s.fifoCount.toNat }

/-- 41_fifo.md R83, R88: FIFO_RESET empties the FIFO; storage, counters and the reassembler stay. -/
def Obligations.FifoResetEmpties : Prop :=
  ∀ s : State, ∃ t, exec .fifoReset s = .next t ∧ fifoHeld t = [] ∧
    t = { s with fifoRd := 0, fifoWr := 0, fifoCount := 0, status := 0x00, result := 0 }

/-! ### Timer commands -/

/-- 42_timer.md R92: a timer command with `t >= P_NTIMERS` answers BAD_INDEX with RESULT 0 and changes
nothing; the ILLEGAL check comes first. -/
def Obligations.TimerIndexOutOfRange : Prop :=
  ∀ (s : State) (t : Byte) (d : Word), s.cfg.nTimers ≤ t.toNat →
    exec (.tmrInit t d) s = .next { s with status := 0xE1, result := 0 } ∧
    exec (.tmrElapsed t) s = .next { s with status := 0xE1, result := 0 } ∧
    exec (.tmrTryfire t) s = .next { s with status := 0xE1, result := 0 } ∧
    exec (.tmrRestart t) s = .next { s with status := 0xE1, result := 0 } ∧
    (∀ (op : Byte) (imm : Half), op ∈ ([0x20, 0x21, 0x22, 0x23] : List Byte) → imm ≠ 0 →
      runCommand (op ++ t ++ imm) d s = .next { s with status := 0xE0, result := 0 })

/-- 42_timer.md R93: TMR_INIT sets the timer's interval and reference time, and nothing else. -/
def Obligations.TmrInitSetsOneTimer : Prop :=
  ∀ (s : State) (t : Byte) (d : Word), TimersGood s → t.toNat < s.cfg.nTimers →
    ∃ u, exec (.tmrInit t d) s = .next u ∧
      u.timers[t.toNat]? = some { last := s.now, intv := d } ∧
      (∀ j, j ≠ t.toNat → u.timers[j]? = s.timers[j]?) ∧
      u = { s with timers := u.timers, status := 0x00, result := 0 }

/-- 42_timer.md R96: TMR_RESTART sets the timer's reference time, keeps its interval, and changes
nothing else. -/
def Obligations.TmrRestartKeepsTheInterval : Prop :=
  ∀ (s : State) (t : Byte) (tm : Timer), TimersGood s → t.toNat < s.cfg.nTimers →
    s.timers[t.toNat]? = some tm →
    ∃ u, exec (.tmrRestart t) s = .next u ∧
      u.timers[t.toNat]? = some { last := s.now, intv := tm.intv } ∧
      (∀ j, j ≠ t.toNat → u.timers[j]? = s.timers[j]?) ∧
      u = { s with timers := u.timers, status := 0x00, result := 0 }

/-- 42_timer.md R90, R94: TMR_ELAPSED answers NOW minus the reference time, 0 when the clock is behind
it, and changes nothing else. -/
def Obligations.TmrElapsedMeasures : Prop :=
  ∀ (s : State) (t : Byte) (tm : Timer), t.toNat < s.cfg.nTimers →
    s.timers[t.toNat]? = some tm →
    ∃ u, exec (.tmrElapsed t) s = .next u ∧
      u = { s with status := 0x00, result := u.result } ∧
      (tm.last.toNat ≤ s.now.toNat → u.result.toNat = s.now.toNat - tm.last.toNat) ∧
      (s.now.toNat < tm.last.toNat → u.result = 0)

/-- 42_timer.md R91, R95: the branches of the firing check. With `diff = NOW - last`, the timer fires
when `diff >= intv` (GE) or `diff > intv` (GT), and the overshoot is `diff - intv`: a backward clock
resynchronises, a fire more than one interval behind snaps to NOW, any other fire catches up by
exactly one interval, and a timer that does not fire stays. Nothing else changes. -/
def Obligations.TmrTryfireBranches : Prop :=
  ∀ (s : State) (t : Byte) (tm : Timer), t.toNat < s.cfg.nTimers →
    s.timers[t.toNat]? = some tm →
    let now := s.now.toNat
    let last := tm.last.toNat
    let intv := tm.intv.toNat
    let fire := (s.cfg.tmrCmp = .ge ∧ intv ≤ now - last) ∨
      (s.cfg.tmrCmp = .gt ∧ intv < now - last)
    (now < last → exec (.tmrTryfire t) s = .next { s with
      timers := s.timers.set t.toNat { tm with last := s.now }
      status := 0x07
      result := 0 }) ∧
    (last ≤ now → ¬ fire →
      exec (.tmrTryfire t) s = .next { s with status := 0x07, result := 0 }) ∧
    (last ≤ now → fire → intv < now - last - intv → exec (.tmrTryfire t) s = .next { s with
      timers := s.timers.set t.toNat { tm with last := s.now }
      status := 0x06
      result := BitVec.ofNat 32 (now - last - intv) }) ∧
    (last ≤ now → fire → now - last - intv ≤ intv → exec (.tmrTryfire t) s = .next { s with
      timers := s.timers.set t.toNat { tm with last := BitVec.ofNat 32 (last + intv) }
      status := 0x06
      result := BitVec.ofNat 32 (now - last - intv) })

/-- 42_timer.md R97, the four properties of the firing check of a timer `tm`. No backward diff: a clock
behind the reference time does not fire and reports 0. Bounded catch-up: with a positive interval and a
fixed NOW, under GT a check after a fire does not fire; under GE a second check fires only when the
first overshoot equals the interval, and a third never. No indefinite suppression: a check whose diff
passes the interval fires, however late, and under GE also one whose diff equals it. The reference time
is never ahead of NOW after a fire. -/
def Obligations.TimerPolicyProperties : Prop :=
  ∀ (s u : State) (t : Byte) (tm : Timer), t.toNat < s.cfg.nTimers →
    s.timers[t.toNat]? = some tm → exec (.tmrTryfire t) s = .next u →
    (s.now.toNat < tm.last.toNat → u.status = 0x07 ∧ u.result = 0) ∧
    (∀ v w, tm.intv ≠ 0 → u.status = 0x06 →
      exec (.tmrTryfire t) u = .next v → exec (.tmrTryfire t) v = .next w →
      (s.cfg.tmrCmp = .gt → v.status = 0x07) ∧
      (s.cfg.tmrCmp = .ge → (v.status = 0x06 ↔ u.result = tm.intv) ∧ w.status = 0x07)) ∧
    (tm.last.toNat + tm.intv.toNat < s.now.toNat → u.status = 0x06) ∧
    (s.cfg.tmrCmp = .ge → tm.last.toNat + tm.intv.toNat = s.now.toNat → u.status = 0x06) ∧
    (u.status = 0x06 →
      ∃ tu, u.timers[t.toNat]? = some tu ∧ tu.last.toNat ≤ s.now.toNat)

/-! ### Frame commands -/

/-- 20_memory.md R50: the check of a list is the sum of its bytes modulo 256, or their exclusive-or;
that of the empty list is 0. -/
def Obligations.CheckFunction : Prop :=
  (∀ l : List Byte, (ck .sum8 l).toNat = (l.map BitVec.toNat).sum % 256) ∧
  (∀ (l : List Byte) (b : Byte), ck .xor8 (b :: l) = b ^^^ ck .xor8 l) ∧
  ck .sum8 [] = 0x00 ∧ ck .xor8 [] = 0x00

/-- 43_frame.md R101: PKT_RD answers byte `k` of the packet buffer, BAD_OFFSET beyond it, and changes
nothing else. -/
def Obligations.PktRdReadsOneByte : Prop :=
  ∀ (s : State) (k : Half),
    (k.toNat < s.cfg.maxFrame →
      exec (.pktRd k) s = .next { s with
        status := 0x00
        result := (pktByte s k.toNat).setWidth 32 }) ∧
    (s.cfg.maxFrame ≤ k.toNat →
      exec (.pktRd k) s = .next { s with status := 0xE2, result := 0 })

/-- 43_frame.md R102: PKT_WR writes byte `k` of the packet buffer and no other byte, BAD_OFFSET beyond
it, and changes nothing else. -/
def Obligations.PktWrWritesOneByte : Prop :=
  ∀ (s : State) (k : Half) (b : Byte), Memory.wf s.pkt →
    (k.toNat < s.cfg.maxFrame →
      ∃ t, exec (.pktWr k b) s = .next t ∧ pktByte t k.toNat = b ∧
        (∀ i, i ≠ k.toNat → pktByte t i = pktByte s i) ∧
        t = { s with pkt := t.pkt, status := 0x00, result := 0 }) ∧
    (s.cfg.maxFrame ≤ k.toNat →
      exec (.pktWr k b) s = .next { s with status := 0xE2, result := 0 })

/-- 43_frame.md R103 and 20_memory.md R54: the value of each field, `PKT[i]` being `pktByte s i`;
BAD_INDEX for the reserved ids and BAD_LENGTH for field 7 with an illegal data_length. Nothing but the
response changes. -/
def Obligations.PktGetfDecodesFields : Prop :=
  ∀ (s : State) (f : Byte),
    let p := fun i => (pktByte s i).toNat
    let dl := (pktDlen s).toNat
    let ok := fun v : Nat =>
      exec (.pktGetf f) s = .next { s with status := 0x00, result := BitVec.ofNat 32 v }
    (f = 0 → ok (p 0)) ∧
    (f = 1 → ok (p 1 + 2 ^ 8 * p 2 + 2 ^ 16 * p 3 + 2 ^ 24 * p 4)) ∧
    (f = 2 → ok (p 5 + 2 ^ 8 * p 6)) ∧
    (f = 3 → ok (p 7)) ∧
    (f = 4 → ok (p 8 + 2 ^ 8 * p 9 + 2 ^ 16 * p 10 + 2 ^ 24 * p 11)) ∧
    (f = 5 → s.cfg.wireOrder = .le → ok (p 12 + 256 * p 13)) ∧
    (f = 5 → s.cfg.wireOrder = .be → ok (256 * p 12 + p 13)) ∧
    (f = 6 → ok (p 14)) ∧
    (f = 7 → 16 ≤ dl → dl ≤ s.cfg.maxFrame → ok (p (dl - 1))) ∧
    (f = 7 → ¬ (16 ≤ dl ∧ dl ≤ s.cfg.maxFrame) →
      exec (.pktGetf f) s = .next { s with status := 0xE3, result := 0 }) ∧
    (f = 8 → ok (if s.pktResp then 1 else 0)) ∧
    (9 ≤ f.toNat → exec (.pktGetf f) s = .next { s with status := 0xE1, result := 0 })

/-- 43_frame.md R104: PKT_SETF stores the field's bytes from the field's offset on, and no other byte;
field 8 stores `pkt_resp` only; BAD_INDEX for the reserved ids and BAD_LENGTH for field 7 with an
illegal data_length change nothing. The offset and the bytes stored are those the meaning uses. -/
def Obligations.PktSetfEncodesFields : Prop :=
  ∀ (s : State) (f : Byte) (d : Word), Memory.wf s.pkt →
    (∀ g, fieldOf f = some g → (f = 7 → pktLegal s = true) →
      ∃ t, exec (.pktSetf f d) s = .next t ∧
        (∀ j b, (fieldBytes g d s)[j]? = some b → pktByte t (fieldOffset g s + j) = b) ∧
        (∀ i, i < fieldOffset g s ∨ fieldOffset g s + (fieldBytes g d s).length ≤ i →
          pktByte t i = pktByte s i) ∧
        t.pktResp = (if f = 8 then d.getLsbD 0 else s.pktResp) ∧
        t = { s with pkt := t.pkt, pktResp := t.pktResp, status := 0x00, result := 0 }) ∧
    (f = 7 → pktLegal s = false →
      exec (.pktSetf f d) s = .next { s with status := 0xE3, result := 0 }) ∧
    (9 ≤ f.toNat → exec (.pktSetf f d) s = .next { s with status := 0xE1, result := 0 })

/-- 43_frame.md R103, R104: a field that PKT_SETF wrote reads back through PKT_GETF as the bits of `d`
that the field's width holds. -/
def Obligations.SetfThenGetfReadsBack : Prop :=
  ∀ (s t : State) (f : Byte) (d : Word), Inv s → exec (.pktSetf f d) s = .next t →
    t.status = 0x00 →
    ∃ u, exec (.pktGetf f) t = .next u ∧ u.status = 0x00 ∧
      (f ∈ ([0, 3, 6, 7] : List Byte) → u.result.toNat = d.toNat % 2 ^ 8) ∧
      (f ∈ ([2, 5] : List Byte) → u.result.toNat = d.toNat % 2 ^ 16) ∧
      (f ∈ ([1, 4] : List Byte) → u.result = d) ∧
      (f = 8 → u.result.toNat = d.toNat % 2)

/-- 43_frame.md R105: HDR_CK answers the computed header check in RESULT[7:0] and in RESULT[8] whether
the stored byte matches, and changes nothing else. -/
def Obligations.HdrCkReportsCheckAndMatch : Prop :=
  ∀ s : State,
    let h := ck s.cfg.ckAlg ((List.range 14).map (pktByte s))
    exec .hdrCk s = .next { s with
      status := 0x00
      result := BitVec.ofNat 32 ((if pktByte s 14 = h then 256 else 0) + h.toNat) }

/-- 43_frame.md R106: PAY_CK does the same for the payload check of a legal data_length; BAD_LENGTH for
an illegal one. -/
def Obligations.PayCkReportsCheckAndMatch : Prop :=
  ∀ s : State,
    let dl := (pktDlen s).toNat
    let q := ck s.cfg.ckAlg ((List.range (dl - 16)).map fun j => pktByte s (15 + j))
    (16 ≤ dl → dl ≤ s.cfg.maxFrame →
      exec .payCk s = .next { s with
        status := 0x00
        result := BitVec.ofNat 32 ((if pktByte s (dl - 1) = q then 256 else 0) + q.toNat) }) ∧
    (¬ (16 ≤ dl ∧ dl ≤ s.cfg.maxFrame) →
      exec .payCk s = .next { s with status := 0xE3, result := 0 })

/-- 43_frame.md R107 and 20_memory.md R53: PKT_VALIDATE reports the first condition that fails, in the
order revision, header check, length, payload check, and PKT_OK when the frame is valid; RESULT is the
data_length, and nothing else changes. -/
def Obligations.PktValidateReportsFirstFailure : Prop :=
  ∀ s : State,
    let dl := (pktDlen s).toNat
    let rev := pktByte s 0 = s.cfgRev
    let hdr := pktByte s 14 = ck s.cfg.ckAlg ((List.range 14).map (pktByte s))
    let len := 16 ≤ dl ∧ dl ≤ s.cfg.maxFrame
    let pay := pktByte s (dl - 1) =
      ck s.cfg.ckAlg ((List.range (dl - 16)).map fun j => pktByte s (15 + j))
    ∃ t, exec .pktValidate s = .next t ∧
      t = { s with status := t.status, result := BitVec.ofNat 32 dl } ∧
      (t.status = 0x10 ↔ rev ∧ hdr ∧ len ∧ pay) ∧
      (t.status = 0x11 ↔ ¬ rev) ∧
      (t.status = 0x12 ↔ rev ∧ ¬ hdr) ∧
      (t.status = 0x13 ↔ rev ∧ hdr ∧ ¬ len) ∧
      (t.status = 0x14 ↔ rev ∧ hdr ∧ len ∧ ¬ pay)

/-- 43_frame.md R108: PKT_FINALIZE stamps the revision tag and the device identity, recomputes both
checks over the stamped bytes, and touches no other byte; BAD_LENGTH writes no byte. -/
def Obligations.PktFinalizeStampsAndChecks : Prop :=
  ∀ s : State, Memory.wf s.pkt →
    let dl := (pktDlen s).toNat
    (16 ≤ dl → dl ≤ s.cfg.maxFrame →
      ∃ t, exec .pktFinalize s = .next t ∧
        pktByte t 0 = s.cfgRev ∧
        (∀ i, i < 6 → (pktByte t (1 + i)).toNat = s.devMac.toNat / 2 ^ (8 * i) % 256) ∧
        pktByte t 14 = ck s.cfg.ckAlg ((List.range 14).map (pktByte t)) ∧
        pktByte t (dl - 1) =
          ck s.cfg.ckAlg ((List.range (dl - 16)).map fun j => pktByte t (15 + j)) ∧
        (∀ i, 6 < i → i ≠ 14 → i ≠ dl - 1 → pktByte t i = pktByte s i) ∧
        t = { s with pkt := t.pkt, status := 0x00, result := BitVec.ofNat 32 dl }) ∧
    (¬ (16 ≤ dl ∧ dl ≤ s.cfg.maxFrame) →
      exec .pktFinalize s = .next { s with status := 0xE3, result := 0 })

/-- 43_frame.md R109 item 1 and R108: a finalised frame validates as PKT_OK with its data_length, and
finalising it again gives the same bytes. -/
def Obligations.FinalizedFrameValidates : Prop :=
  ∀ s t : State, Inv s → exec .pktFinalize s = .next t → t.status = 0x00 →
    exec .pktValidate t = .next { t with status := 0x10 } ∧
    ∃ u, exec .pktFinalize t = .next u ∧ ∀ i, pktByte u i = pktByte t i

/-! ### Reassembler commands -/

/-- 44_reassembler.md R116, R121: Seeking. On an empty FIFO RSM_STEP waits; at the tag it moves to
HeaderPending and consumes nothing; any other byte is discarded and counted. -/
def Obligations.SeekingStep : Prop :=
  ∀ s : State, Inv s → s.rsmState = .seeking →
    (fifoHeld s = [] → exec .rsmStep s = .next { s with status := 0x03, result := 0 }) ∧
    (∀ bs, fifoHeld s = s.cfgRev :: bs →
      exec .rsmStep s = .next { s with rsmState := .headerPending, status := 0x05, result := 1 }) ∧
    (∀ b bs, fifoHeld s = b :: bs → b ≠ s.cfgRev →
      ∃ t, exec .rsmStep s = .next t ∧ fifoHeld t = bs ∧
        t = { s with
          fifoRd := t.fifoRd
          fifoCount := s.fifoCount - 1
          junkCnt := s.junkCnt + 1
          status := 0x05
          result := 0 })

/-- 44_reassembler.md R117, R121: HeaderPending. With fewer than 15 bytes RSM_STEP waits; a header that
passes is latched and nothing is consumed; any other costs exactly one byte, counted as junk and as a
header failure, and Seeking follows. -/
def Obligations.HeaderPendingStep : Prop :=
  ∀ s : State, Inv s → s.rsmState = .headerPending →
    (s.fifoCount.toNat < 15 → exec .rsmStep s = .next { s with status := 0x03, result := 1 }) ∧
    (15 ≤ s.fifoCount.toNat → HeaderGood s.cfg s.cfgRev (fifoHeld s) →
      exec .rsmStep s = .next { s with
        rsmLen := lengthOf s.cfg (fifoHeld s)
        rsmState := .payloadPending
        status := 0x05
        result := 2 }) ∧
    (15 ≤ s.fifoCount.toNat → ¬ HeaderGood s.cfg s.cfgRev (fifoHeld s) →
      ∃ t, exec .rsmStep s = .next t ∧ fifoHeld t = (fifoHeld s).tail ∧
        t = { s with
          fifoRd := t.fifoRd
          fifoCount := s.fifoCount - 1
          junkCnt := s.junkCnt + 1
          hdrfailCnt := s.hdrfailCnt + 1
          rsmLen := 0
          rsmState := .seeking
          status := 0x05
          result := 0 })

/-- 44_reassembler.md R118 to R121: PayloadPending, with `dl = rsm_len`. With fewer than `dl` bytes
RSM_STEP waits and changes nothing; a failed payload check costs exactly one byte; a passed one
delivers the `dl` bytes into PKT, leaves every other byte of PKT, consumes the frame and nothing more,
and clears `pkt_resp`. -/
def Obligations.PayloadPendingStep : Prop :=
  ∀ s : State, Inv s → s.rsmState = .payloadPending →
    let dl := s.rsmLen.toNat
    let F := (fifoHeld s).take dl
    let pass := F.getD (dl - 1) 0 = ck s.cfg.ckAlg ((F.drop 15).take (dl - 16))
    (s.fifoCount.toNat < dl → exec .rsmStep s = .next { s with status := 0x03, result := 2 }) ∧
    (dl ≤ s.fifoCount.toNat → ¬ pass →
      ∃ t, exec .rsmStep s = .next t ∧ fifoHeld t = (fifoHeld s).tail ∧
        t = { s with
          fifoRd := t.fifoRd
          fifoCount := s.fifoCount - 1
          junkCnt := s.junkCnt + 1
          payfailCnt := s.payfailCnt + 1
          rsmLen := 0
          rsmState := .seeking
          status := 0x05
          result := 0 }) ∧
    (dl ≤ s.fifoCount.toNat → pass →
      ∃ t, exec .rsmStep s = .next t ∧ fifoHeld t = (fifoHeld s).drop dl ∧
        pktBytes t 0 dl = F ∧ (∀ i, dl ≤ i → pktByte t i = pktByte s i) ∧
        t.result.toNat = dl ∧
        t = { s with
          fifoRd := t.fifoRd
          fifoCount := t.fifoCount
          pkt := t.pkt
          pktResp := false
          frameCnt := s.frameCnt + 1
          rsmLen := 0
          rsmState := .seeking
          status := 0x04
          result := t.result })

/-- 44_reassembler.md R122: RSM_POLL is the loop of RSM_STEP: where a step answers CONTINUE a poll does
what a poll from the state after it does, and where it answers NOT_READY or READY the poll ends there,
with the same response. -/
def Obligations.PollIsTheLoopOfSteps : Prop :=
  ∀ s t : State, Inv s → exec .rsmStep s = .next t →
    (t.status = 0x05 → exec .rsmPoll s = exec .rsmPoll t) ∧
    (t.status = 0x03 → exec .rsmPoll s = .next t) ∧
    (t.status = 0x04 → exec .rsmPoll s = .next t)

/-- 44_reassembler.md R122, R124 item 1: a poll always ends, with NOT_READY or READY, and the bound of
`3*fifo_count + 3` steps is enough: allowing more changes nothing. A poll changes the FIFO's read side,
PKT, the response flag, the reassembler and its four counters, and nothing else. -/
def Obligations.PollEndsWithinItsBound : Prop :=
  ∀ s : State, Inv s →
    (∃ t, exec .rsmPoll s = .next t ∧ (t.status = 0x03 ∨ t.status = 0x04) ∧
      t = { s with
        fifoRd := t.fifoRd
        fifoCount := t.fifoCount
        pkt := t.pkt
        pktResp := t.pktResp
        rsmState := t.rsmState
        rsmLen := t.rsmLen
        junkCnt := t.junkCnt
        hdrfailCnt := t.hdrfailCnt
        payfailCnt := t.payfailCnt
        frameCnt := t.frameCnt
        status := t.status
        result := t.result }) ∧
    ∀ n, 3 * s.fifoCount.toNat + 3 ≤ n → rsmLoop n s = rsmRun s

/-- 44_reassembler.md R124 item 5, the resync invariant: behind any garbage each byte of which R124
allows, a poll from Seeking delivers exactly the valid frame `W` and removes no byte after it; each
garbage byte was counted as junk, and the rest of PKT is untouched. -/
def Obligations.PollResynchronisesOnTheFrame : Prop :=
  ∀ (s : State) (G W rest : List Byte), Inv s → s.rsmState = .seeking →
    ValidFrame s.cfg s.cfgRev W → fifoHeld s = G ++ W ++ rest →
    (∀ n, n < G.length → Skippable s.cfg s.cfgRev ((fifoHeld s).drop n)) →
    ∃ t, exec .rsmPoll s = .next t ∧ t.status = 0x04 ∧ t.result.toNat = W.length ∧
      pktBytes t 0 W.length = W ∧ (∀ i, W.length ≤ i → pktByte t i = pktByte s i) ∧
      fifoHeld t = rest ∧ t.rsmState = .seeking ∧ t.rsmLen = 0 ∧ t.pktResp = false ∧
      t.frameCnt = s.frameCnt + 1 ∧ t.junkCnt = s.junkCnt + BitVec.ofNat 32 G.length

/-- 44_reassembler.md R124 item 7, no partial delivery: on a strict prefix of a valid frame a poll
answers NOT_READY and discards nothing, and once the remaining bytes are there the frame is
delivered. -/
def Obligations.PartialFrameWaitsAndIsDelivered : Prop :=
  ∀ (s : State) (W : List Byte) (n : Nat), Inv s → s.rsmState = .seeking →
    ValidFrame s.cfg s.cfgRev W → n < W.length → fifoHeld s = W.take n →
    ∃ t, exec .rsmPoll s = .next t ∧ t.status = 0x03 ∧ fifoHeld t = W.take n ∧
      t = { s with
        rsmState := t.rsmState
        rsmLen := t.rsmLen
        status := t.status
        result := t.result } ∧
      ∀ (u : State) (rest : List Byte), Inv u → u.cfg = s.cfg → u.cfgRev = s.cfgRev →
        u.rsmState = t.rsmState → u.rsmLen = t.rsmLen → fifoHeld u = W ++ rest →
        ∃ v, exec .rsmPoll u = .next v ∧ v.status = 0x04 ∧ pktBytes v 0 W.length = W ∧
          fifoHeld v = rest

/-- 44_reassembler.md R124 item 6, incremental feeding, one byte: a poll that ends waiting makes no
difference to what the next poll does once a byte has been pushed. -/
def Obligations.WaitingPollCommutesWithPush : Prop :=
  ∀ (s t s1 t1 : State) (b : Byte), Inv s → s.fifoCount.toNat < s.cfg.fifoCap →
    exec .rsmPoll s = .next t → t.status = 0x03 →
    exec (.fifoPush b) s = .next s1 → exec (.fifoPush b) t = .next t1 →
    exec .rsmPoll s1 = exec .rsmPoll t1

/-- 44_reassembler.md R124 item 8, checks on delivery: a frame that a poll delivers passes all four
tests of PKT_VALIDATE, unless the poll began in PayloadPending (where R172 lets software have taken the
checked header away). -/
def Obligations.PolledFrameValidates : Prop :=
  ∀ s t : State, Inv s → s.rsmState ≠ .payloadPending → exec .rsmPoll s = .next t →
    t.status = 0x04 → exec .pktValidate t = .next { t with status := 0x10 }

/-- 44_reassembler.md R123: RSM_RESET puts the reassembler into Seeking with `rsm_len` 0 and changes
nothing else. -/
def Obligations.RsmResetReturnsToSeeking : Prop :=
  ∀ s : State, exec .rsmReset s = .next { s with
    rsmState := .seeking
    rsmLen := 0
    status := 0x00
    result := 0 }

/-! ### Link commands -/

/-- 45_link.md R133, R134: RX_PUSH appends its byte, or drops and counts it when the FIFO is full, and
restarts the watchdog in both cases; it keeps the watchdog's interval and changes nothing else. -/
def Obligations.RxPushRestartsTheWatchdog : Prop :=
  ∀ (s : State) (b : Byte) (tm : Timer), Inv s → s.timers[0]? = some tm →
    (s.fifoCount.toNat < s.cfg.fifoCap →
      ∃ t, exec (.rxPush b) s = .next t ∧ fifoHeld t = fifoHeld s ++ [b] ∧
        t.result.toNat = s.fifoCount.toNat + 1 ∧
        (∀ a, a ≠ s.fifoWr.toNat → Memory.read t.fifoMem a = Memory.read s.fifoMem a) ∧
        t = { s with
          fifoMem := t.fifoMem
          fifoWr := t.fifoWr
          fifoCount := s.fifoCount + 1
          timers := s.timers.set 0 { last := s.now, intv := tm.intv }
          status := 0x00
          result := t.result }) ∧
    (s.fifoCount.toNat = s.cfg.fifoCap →
      exec (.rxPush b) s = .next { s with
        ovfCnt := s.ovfCnt + 1
        timers := s.timers.set 0 { last := s.now, intv := tm.intv }
        status := 0x02
        result := BitVec.ofNat 32 s.cfg.fifoCap })

/-- 45_link.md R131, R135: LINK_CHECK answers as TMR_TRYFIRE of timer 0 does; when that fires, and only
then, the FIFO and the reassembler are cleared, the link is not established and the timeout is
counted, PKT and `pkt_resp` untouched. -/
def Obligations.LinkCheckIsTheWatchdog : Prop :=
  ∀ s : State, 1 ≤ s.cfg.nTimers →
    ∃ u, exec (.tmrTryfire 0) s = .next u ∧
      (u.status = 0x07 → exec .linkCheck s = .next u) ∧
      (u.status = 0x06 → exec .linkCheck s = .next { u with
        fifoRd := 0
        fifoWr := 0
        fifoCount := 0
        rsmState := .seeking
        rsmLen := 0
        linkEst := false
        timeoutCnt := u.timeoutCnt + 1 }) ∧
      (u.status = 0x06 ∨ u.status = 0x07)

/-- 45_link.md R136: LINK_SETEST marks the link established and changes nothing else. -/
def Obligations.LinkSetestEstablishes : Prop :=
  ∀ s : State, exec .linkSetest s = .next { s with linkEst := true, status := 0x00, result := 0 }

/-- 45_link.md R137: TICK is LINK_CHECK and then RSM_POLL in one step; its RESULT carries the watchdog's
fire in bit 16 above the poll's RESULT. After a fire the FIFO is empty, so it answers NOT_READY with
RESULT 0x10000. -/
def Obligations.TickIsCheckThenPoll : Prop :=
  ∀ s : State, Inv s →
    ∃ u t, exec .linkCheck s = .next u ∧ exec .rsmPoll u = .next t ∧
      exec .tick s = .next { t with
        result := BitVec.ofNat 32 ((if u.status = 0x06 then 2 ^ 16 else 0) + t.result.toNat) } ∧
      (u.status = 0x06 → t.status = 0x03 ∧ t.result = 0)

/-! ### CSR commands -/

/-- 46_csr.md R140, R141 and 10_state.md R34: the value of every defined CSR, BAD_INDEX for every other
number. Nothing but the response changes. -/
def Obligations.CsrRdReadsTheMap : Prop :=
  ∀ s : State, s.cfg.legal = true →
    let ok := fun (c : Byte) (v : Nat) =>
      exec (.csrRd c) s = .next { s with status := 0x00, result := BitVec.ofNat 32 v }
    ok 0x00 s.cfgRev.toNat ∧ ok 0x01 (statusWord s).toNat ∧ ok 0x02 s.fifoCount.toNat ∧
    ok 0x03 s.junkCnt.toNat ∧ ok 0x04 s.ovfCnt.toNat ∧ ok 0x05 s.hdrfailCnt.toNat ∧
    ok 0x06 s.payfailCnt.toNat ∧ ok 0x07 s.frameCnt.toNat ∧ ok 0x08 s.timeoutCnt.toNat ∧
    ok 0x09 (s.devMac.toNat % 2 ^ 32) ∧ ok 0x0A (s.devMac.toNat / 2 ^ 32) ∧
    ok 0x0B s.rsmLen.toNat ∧ ok 0x0C s.cfg.fifoCap ∧ ok 0x0D s.cfg.maxFrame ∧
    ok 0x0E s.cfg.nTimers ∧
    (∀ (t : Nat) (tm : Timer), t < s.cfg.nTimers → s.timers[t]? = some tm →
      ok (BitVec.ofNat 8 (0x20 + t)) tm.last.toNat ∧
      ok (BitVec.ofNat 8 (0x30 + t)) tm.intv.toNat) ∧
    (∀ c : Byte, ¬ (c.toNat ≤ 0x0E ∨ (0x20 ≤ c.toNat ∧ c.toNat < 0x20 + s.cfg.nTimers) ∨
        (0x30 ≤ c.toNat ∧ c.toNat < 0x30 + s.cfg.nTimers)) →
      exec (.csrRd c) s = .next { s with status := 0xE1, result := 0 })

/-- 10_state.md R35: the CSR STATUS word as CSR_RD answers it, field by field; bits [31:6] read 0, and
CSR_WR answers READ_ONLY and changes nothing. -/
def Obligations.CsrStatusWord : Prop :=
  ∀ s : State,
    (∃ t, exec (.csrRd 0x01) s = .next t ∧
      t = { s with status := 0x00, result := t.result } ∧
      t.result.toNat % 4 = (match s.rsmState with
        | .seeking => 0
        | .headerPending => 1
        | .payloadPending => 2
        | .ready => 3) ∧
      t.result.getLsbD 2 = s.linkEst ∧
      (t.result.getLsbD 3 = true ↔ s.fifoCount = 0) ∧
      (t.result.getLsbD 4 = true ↔ s.fifoCount.toNat = s.cfg.fifoCap) ∧
      t.result.getLsbD 5 = s.pktResp ∧
      t.result.toNat < 2 ^ 6) ∧
    ∀ d, exec (.csrWr 0x01 d) s = .next { s with status := 0xE4, result := 0 }

/-- 46_csr.md R142: CSR_WR writes the named register and nothing else, keeping the bits of `d` that the
register holds; READ_ONLY for a defined read-only number, BAD_INDEX for a number that is not defined,
and neither changes anything. -/
def Obligations.CsrWrWritesTheNamedRegister : Prop :=
  ∀ (s : State) (d : Word), s.cfg.legal = true →
    exec (.csrWr 0x00 d) s =
      .next { s with cfgRev := d.setWidth 8, status := 0x00, result := 0 } ∧
    exec (.csrWr 0x03 d) s = .next { s with junkCnt := d, status := 0x00, result := 0 } ∧
    exec (.csrWr 0x04 d) s = .next { s with ovfCnt := d, status := 0x00, result := 0 } ∧
    exec (.csrWr 0x05 d) s = .next { s with hdrfailCnt := d, status := 0x00, result := 0 } ∧
    exec (.csrWr 0x06 d) s = .next { s with payfailCnt := d, status := 0x00, result := 0 } ∧
    exec (.csrWr 0x07 d) s = .next { s with frameCnt := d, status := 0x00, result := 0 } ∧
    exec (.csrWr 0x08 d) s = .next { s with timeoutCnt := d, status := 0x00, result := 0 } ∧
    exec (.csrWr 0x09 d) s = .next { s with
      devMac := BitVec.ofNat 48 (s.devMac.toNat / 2 ^ 32 * 2 ^ 32 + d.toNat)
      status := 0x00
      result := 0 } ∧
    exec (.csrWr 0x0A d) s = .next { s with
      devMac := BitVec.ofNat 48 (d.toNat % 2 ^ 16 * 2 ^ 32 + s.devMac.toNat % 2 ^ 32)
      status := 0x00
      result := 0 } ∧
    (∀ c : Byte, c ∈ ([0x01, 0x02, 0x0B, 0x0C, 0x0D, 0x0E] : List Byte) ∨
        (0x20 ≤ c.toNat ∧ c.toNat < 0x20 + s.cfg.nTimers) ∨
        (0x30 ≤ c.toNat ∧ c.toNat < 0x30 + s.cfg.nTimers) →
      exec (.csrWr c d) s = .next { s with status := 0xE4, result := 0 }) ∧
    (∀ c : Byte, ¬ (c.toNat ≤ 0x0E ∨ (0x20 ≤ c.toNat ∧ c.toNat < 0x20 + s.cfg.nTimers) ∨
        (0x30 ≤ c.toNat ∧ c.toNat < 0x30 + s.cfg.nTimers)) →
      exec (.csrWr c d) s = .next { s with status := 0xE1, result := 0 })
end

