-- ==== Sys2Proof/Laws/Encoding.lean ====
section
/-! SUPPORT. The fields of an assembled CMD word (30_encoding.md R65). -/

namespace Sys2Proof

@[simp] theorem opField_cmdWord (op a : Byte) (imm : Half) : opField (cmdWord op a imm) = op := by
  apply BitVec.eq_of_getLsbD_eq
  intro i hi
  simp only [opField, cmdWord, BitVec.getLsbD_extractLsb', BitVec.getLsbD_append]
  rw [if_neg (by omega), if_neg (by omega), show 24 + i - 16 - 8 = i by omega]
  simp [hi]

@[simp] theorem aField_cmdWord (op a : Byte) (imm : Half) : aField (cmdWord op a imm) = a := by
  apply BitVec.eq_of_getLsbD_eq
  intro i hi
  simp only [aField, cmdWord, BitVec.getLsbD_extractLsb', BitVec.getLsbD_append]
  rw [if_neg (by omega), if_pos (by omega), show 16 + i - 16 = i by omega]
  simp [hi]

@[simp] theorem immField_cmdWord (op a : Byte) (imm : Half) : immField (cmdWord op a imm) = imm := by
  apply BitVec.eq_of_getLsbD_eq
  intro i hi
  simp only [immField, cmdWord, BitVec.getLsbD_extractLsb', BitVec.getLsbD_append]
  rw [if_pos (by omega)]
  simp [hi]

@[simp] theorem immByte_cmdWord (op a b : Byte) : immByte (cmdWord op a (b.setWidth 16)) = b := by
  apply BitVec.eq_of_getLsbD_eq
  intro i hi
  simp only [immByte, cmdWord, BitVec.getLsbD_extractLsb', BitVec.getLsbD_append]
  rw [if_pos (by omega)]
  simp [hi]
  omega

/-- A CMD word is its three fields. -/
theorem cmdWord_fields (cmd : Word) : cmdWord (opField cmd) (aField cmd) (immField cmd) = cmd := by
  apply BitVec.eq_of_getLsbD_eq
  intro i hi
  simp only [opField, aField, immField, cmdWord, BitVec.getLsbD_append, BitVec.getLsbD_extractLsb']
  by_cases h1 : i < 16
  · simp [h1]
  · rw [if_neg h1]
    by_cases h2 : i - 16 < 8
    · rw [if_pos h2]
      simp [h2]
      congr 1; omega
    · rw [if_neg h2]
      have h3 : i - 16 - 8 < 8 := by omega
      simp [h3]
      congr 1; omega

/-- Every row has an `OP` of its own (R68): looking its `OP` up finds it. -/
theorem opcodeOf_code (o : Opcode) : opcodeOf o.code = some o := by
  cases o <;> decide

theorem cmdWord_and (x a y b : Byte) (i j : Half) :
    cmdWord x a i &&& cmdWord y b j = cmdWord (x &&& y) (a &&& b) (i &&& j) := by
  apply BitVec.eq_of_getLsbD_eq
  intro n _
  simp only [cmdWord, BitVec.getLsbD_and, BitVec.getLsbD_append]
  split
  · rfl
  · split <;> rfl

theorem cmdWord_inj {x a y b : Byte} {i j : Half} :
    cmdWord x a i = cmdWord y b j ↔ x = y ∧ a = b ∧ i = j := by
  refine ⟨fun h => ⟨?_, ?_, ?_⟩, fun ⟨h1, h2, h3⟩ => by rw [h1, h2, h3]⟩
  · simpa using congrArg opField h
  · simpa using congrArg aField h
  · simpa using congrArg immField h

/-- The must-be-0 bits of a format's `A` field (R66). -/
def reservedA : Format → Byte
  | .n | .b | .k => 0xFF
  | .t | .td | .pw | .f | .fd | .c | .cd => 0x00

/-- The must-be-0 bits of a format's `IMM` field (R66). -/
def reservedImm : Format → Half
  | .b => 0xFF00
  | .k | .pw => 0x0000
  | .n | .t | .td | .f | .fd | .c | .cd => 0xFFFF

/-- Format B: a byte operand leaves `IMM[15:8]` 0 (R66, R67). -/
@[simp] theorem byteOperand_reserved (b : Byte) : b.setWidth 16 &&& 0xFF00#16 = 0#16 := by
  revert b
  decide

theorem mask_eq (m : Format) : m.mask = cmdWord 0xFF (reservedA m) (reservedImm m) := by
  cases m <;> decide

theorem matchWord_eq (o : Opcode) : o.matchWord = cmdWord o.code 0 0 := by
  cases o <;> decide

/-- A CMD word selects a row iff its `OP` is the row's and its must-be-0 bits are 0 (R66). -/
theorem selects_cmdWord (o : Opcode) (op a : Byte) (imm : Half) :
    o.selects (cmdWord op a imm) = true ↔
      op = o.code ∧ a &&& reservedA o.format = 0 ∧ imm &&& reservedImm o.format = 0 := by
  rw [Opcode.selects, mask_eq, matchWord_eq, cmdWord_and, beq_iff_eq, cmdWord_inj,
    show (0xFF : Byte) = BitVec.allOnes 8 from by decide, BitVec.and_allOnes]

end Sys2Proof
end

