-- ==== Sys2Proof/Laws/Exec.lean ====
section
/-! SUPPORT. `exec` at each constructor, so that no proof unfolds the whole match. -/

namespace Sys2Proof.Machine

@[simp] theorem exec_fifoPush (b : Byte) (s : State) :
    exec (.fifoPush b) s = execFifoPush b s := rfl

@[simp] theorem exec_fifoPop (s : State) : exec .fifoPop s = execFifoPop s := rfl

@[simp] theorem exec_fifoPeek (k : Half) (s : State) :
    exec (.fifoPeek k) s = execFifoPeek k s := rfl

@[simp] theorem exec_fifoAvail (s : State) : exec .fifoAvail s = execFifoAvail s := rfl

@[simp] theorem exec_fifoReset (s : State) : exec .fifoReset s = execFifoReset s := rfl

@[simp] theorem exec_tmrInit (t : Byte) (d : Word) (s : State) :
    exec (.tmrInit t d) s = execTmrInit t d s := rfl

@[simp] theorem exec_tmrElapsed (t : Byte) (s : State) :
    exec (.tmrElapsed t) s = execTmrElapsed t s := rfl

@[simp] theorem exec_tmrTryfire (t : Byte) (s : State) :
    exec (.tmrTryfire t) s = execTmrTryfire t s := rfl

@[simp] theorem exec_tmrRestart (t : Byte) (s : State) :
    exec (.tmrRestart t) s = execTmrRestart t s := rfl

@[simp] theorem exec_pktRd (k : Half) (s : State) :
    exec (.pktRd k) s = execPktRd k s := rfl

@[simp] theorem exec_pktWr (k : Half) (b : Byte) (s : State) :
    exec (.pktWr k b) s = execPktWr k b s := rfl

@[simp] theorem exec_pktGetf (f : Byte) (s : State) :
    exec (.pktGetf f) s = execPktGetf f s := rfl

@[simp] theorem exec_pktSetf (f : Byte) (d : Word) (s : State) :
    exec (.pktSetf f d) s = execPktSetf f d s := rfl

@[simp] theorem exec_hdrCk (s : State) : exec .hdrCk s = execHdrCk s := rfl

@[simp] theorem exec_payCk (s : State) : exec .payCk s = execPayCk s := rfl

@[simp] theorem exec_pktValidate (s : State) : exec .pktValidate s = execPktValidate s := rfl

@[simp] theorem exec_pktFinalize (s : State) : exec .pktFinalize s = execPktFinalize s := rfl

@[simp] theorem exec_rsmStep (s : State) : exec .rsmStep s = execRsmStep s := rfl

@[simp] theorem exec_rsmPoll (s : State) : exec .rsmPoll s = execRsmPoll s := rfl

@[simp] theorem exec_rsmReset (s : State) : exec .rsmReset s = execRsmReset s := rfl

@[simp] theorem exec_rxPush (b : Byte) (s : State) :
    exec (.rxPush b) s = execRxPush b s := rfl

@[simp] theorem exec_linkCheck (s : State) : exec .linkCheck s = execLinkCheck s := rfl

@[simp] theorem exec_linkSetest (s : State) : exec .linkSetest s = execLinkSetest s := rfl

@[simp] theorem exec_tick (s : State) : exec .tick s = execTick s := rfl

@[simp] theorem exec_csrRd (c : Byte) (s : State) :
    exec (.csrRd c) s = execCsrRd c s := rfl

@[simp] theorem exec_csrWr (c : Byte) (d : Word) (s : State) :
    exec (.csrWr c d) s = execCsrWr c d s := rfl

end Sys2Proof.Machine
end

