-- ==== Sys2Proof/Laws/Memory.lean ====
section
/-! SUPPORT. The laws of byte storage: a read after a write, and the canonical form and the bound of
the space kept by every write. -/

namespace Sys2Proof.Machine

@[simp] theorem Memory.read_nil (i : Nat) : Memory.read [] i = Memory.unlisted := rfl

theorem Memory.wf_nil : Memory.wf [] := by simp [Memory.wf]

theorem Memory.below_nil (n : Nat) : Memory.below [] n := by simp [Memory.below]

theorem Memory.wf_tail {c : Host.Cell} {m : Memory} (h : Memory.wf (c :: m)) : Memory.wf m :=
  ⟨(List.pairwise_cons.mp h.1).2, fun x hx => h.2 x (List.mem_cons_of_mem _ hx)⟩

/-- An index below every listed one reads as unlisted. -/
theorem Memory.read_of_lt {m : Memory} {i : Nat} (h : ∀ c ∈ m, i < c.1) :
    Memory.read m i = Memory.unlisted := by
  induction m with
  | nil => rfl
  | cons c m ih =>
    obtain ⟨a, b⟩ := c
    have ha : i < a := h (a, b) (by simp)
    have hne : i ≠ a := by omega
    simp only [Memory.read, if_neg hne]
    exact ih fun c hc => h c (List.mem_cons_of_mem _ hc)

/-- What a listed index of written storage is: the written one, or one listed before. -/
theorem Memory.mem_write {m : Memory} {i : Nat} {v : Byte} {c : Host.Cell}
    (h : c ∈ Memory.write m i v) : (c = (i, v) ∧ v ≠ Memory.unlisted) ∨ c ∈ m := by
  induction m with
  | nil =>
    simp only [Memory.write] at h
    split at h <;> simp_all
  | cons d m ih =>
    obtain ⟨a, b⟩ := d
    simp only [Memory.write] at h
    split at h
    · split at h
      · exact .inr h
      · rcases List.mem_cons.mp h with h | h
        · exact .inl ⟨h, ‹_›⟩
        · exact .inr h
    · split at h
      · split at h
        · exact .inr (List.mem_cons_of_mem _ h)
        · rcases List.mem_cons.mp h with h' | h'
          · subst i
            exact .inl ⟨h', ‹_›⟩
          · exact .inr (List.mem_cons_of_mem _ h')
      · rcases List.mem_cons.mp h with h' | h'
        · exact .inr (by simp [h'])
        · rcases ih h' with h'' | h''
          · exact .inl h''
          · exact .inr (List.mem_cons_of_mem _ h'')

/-- A write keeps the canonical form. -/
theorem Memory.wf_write {m : Memory} (hm : Memory.wf m) (i : Nat) (v : Byte) :
    Memory.wf (Memory.write m i v) := by
  refine ⟨?_, fun c hc => ?_⟩
  · induction m with
    | nil => simp only [Memory.write]; split <;> simp
    | cons d m ih =>
      obtain ⟨a, b⟩ := d
      have hp := List.pairwise_cons.mp hm.1
      simp only [Memory.write]
      split
      · split
        · exact hm.1
        · refine List.pairwise_cons.mpr ⟨fun c hc => ?_, hm.1⟩
          rcases List.mem_cons.mp hc with h | h
          · subst h; assumption
          · have := hp.1 c h
            simp only at this ⊢
            omega
      · split
        · split
          · exact hp.2
          · exact List.pairwise_cons.mpr ⟨hp.1, hp.2⟩
        · refine List.pairwise_cons.mpr ⟨fun c hc => ?_, ih (Memory.wf_tail hm)⟩
          rcases Memory.mem_write hc with h | h
          · simp only [h.1]; omega
          · exact hp.1 c h
  · rcases Memory.mem_write hc with h | h
    · simpa [h.1] using h.2
    · exact hm.2 c h

/-- A write inside the space lists nothing outside it. -/
theorem Memory.below_write {m : Memory} {n i : Nat} (hm : Memory.below m n) (hi : i < n) (v : Byte) :
    Memory.below (Memory.write m i v) n := by
  intro c hc
  rcases Memory.mem_write hc with h | h
  · simpa [h.1] using hi
  · exact hm c h

/-- A read after a write: the written byte at its index, every other byte as before. -/
theorem Memory.read_write {m : Memory} (hm : Memory.wf m) (i j : Nat) (v : Byte) :
    Memory.read (Memory.write m i v) j = if j = i then v else Memory.read m j := by
  induction m with
  | nil =>
    by_cases hv : v = Memory.unlisted <;> by_cases hj : j = i <;>
      simp [Memory.write, Memory.read, hv, hj]
  | cons d m ih =>
    obtain ⟨a, b⟩ := d
    have hp := List.pairwise_cons.mp hm.1
    by_cases hia : i < a
    · by_cases hv : v = Memory.unlisted
      · simp only [Memory.write, if_pos hia, if_pos hv]
        split
        · subst j
          rw [hv]
          refine Memory.read_of_lt fun c hc => ?_
          rcases List.mem_cons.mp hc with h | h
          · simpa [h] using hia
          · have := hp.1 c h
            simp only at this
            omega
        · rfl
      · simp only [Memory.write, if_pos hia, if_neg hv]
        rw [Memory.read]
    · by_cases hie : i = a
      · subst hie
        by_cases hv : v = Memory.unlisted
        · simp only [Memory.write, lt_irrefl, if_false, if_true, if_pos hv, Memory.read]
          by_cases hj : j = i
          · subst hj
            rw [if_pos rfl, hv]
            exact Memory.read_of_lt hp.1
          · simp [hj]
        · simp only [Memory.write, lt_irrefl, if_false, if_true, if_neg hv, Memory.read]
          by_cases hj : j = i <;> simp [hj]
      · simp only [Memory.write, if_neg hia, if_neg hie, Memory.read]
        rw [ih (Memory.wf_tail hm)]
        by_cases hja : j = a
        · have : j ≠ i := by omega
          simp [hja, Ne.symm hie]
        · simp [hja]

end Sys2Proof.Machine
end

