-- ==== Sys2Proof/Laws/State.lean ====
section
/-! SUPPORT. What each update of the state does to each field: one lemma per field per update, true by
rfl, so that no later proof unfolds a record update. -/

namespace Sys2Proof.Machine

/-! ### respond -/

@[simp] theorem respond_fifoMem (c : StatusCode) (r : Word) (s : State) :
    (respond c r s).fifoMem = s.fifoMem := rfl
@[simp] theorem respond_fifoRd (c : StatusCode) (r : Word) (s : State) :
    (respond c r s).fifoRd = s.fifoRd := rfl
@[simp] theorem respond_fifoWr (c : StatusCode) (r : Word) (s : State) :
    (respond c r s).fifoWr = s.fifoWr := rfl
@[simp] theorem respond_fifoCount (c : StatusCode) (r : Word) (s : State) :
    (respond c r s).fifoCount = s.fifoCount := rfl
@[simp] theorem respond_pkt (c : StatusCode) (r : Word) (s : State) :
    (respond c r s).pkt = s.pkt := rfl
@[simp] theorem respond_pktResp (c : StatusCode) (r : Word) (s : State) :
    (respond c r s).pktResp = s.pktResp := rfl
@[simp] theorem respond_rsmState (c : StatusCode) (r : Word) (s : State) :
    (respond c r s).rsmState = s.rsmState := rfl
@[simp] theorem respond_rsmLen (c : StatusCode) (r : Word) (s : State) :
    (respond c r s).rsmLen = s.rsmLen := rfl
@[simp] theorem respond_timers (c : StatusCode) (r : Word) (s : State) :
    (respond c r s).timers = s.timers := rfl
@[simp] theorem respond_linkEst (c : StatusCode) (r : Word) (s : State) :
    (respond c r s).linkEst = s.linkEst := rfl
@[simp] theorem respond_cfgRev (c : StatusCode) (r : Word) (s : State) :
    (respond c r s).cfgRev = s.cfgRev := rfl
@[simp] theorem respond_devMac (c : StatusCode) (r : Word) (s : State) :
    (respond c r s).devMac = s.devMac := rfl
@[simp] theorem respond_junkCnt (c : StatusCode) (r : Word) (s : State) :
    (respond c r s).junkCnt = s.junkCnt := rfl
@[simp] theorem respond_ovfCnt (c : StatusCode) (r : Word) (s : State) :
    (respond c r s).ovfCnt = s.ovfCnt := rfl
@[simp] theorem respond_hdrfailCnt (c : StatusCode) (r : Word) (s : State) :
    (respond c r s).hdrfailCnt = s.hdrfailCnt := rfl
@[simp] theorem respond_payfailCnt (c : StatusCode) (r : Word) (s : State) :
    (respond c r s).payfailCnt = s.payfailCnt := rfl
@[simp] theorem respond_frameCnt (c : StatusCode) (r : Word) (s : State) :
    (respond c r s).frameCnt = s.frameCnt := rfl
@[simp] theorem respond_timeoutCnt (c : StatusCode) (r : Word) (s : State) :
    (respond c r s).timeoutCnt = s.timeoutCnt := rfl
@[simp] theorem respond_status (c : StatusCode) (r : Word) (s : State) :
    (respond c r s).status = c.code := rfl
@[simp] theorem respond_result (c : StatusCode) (r : Word) (s : State) :
    (respond c r s).result = r := rfl
@[simp] theorem respond_cfg (c : StatusCode) (r : Word) (s : State) :
    (respond c r s).cfg = s.cfg := rfl
@[simp] theorem respond_now (c : StatusCode) (r : Word) (s : State) :
    (respond c r s).now = s.now := rfl
@[simp] theorem respond_inputs (c : StatusCode) (r : Word) (s : State) :
    (respond c r s).inputs = s.inputs := rfl

/-! ### raiseErr -/

@[simp] theorem raiseErr_fifoMem (c : StatusCode) (s : State) :
    (raiseErr c s).fifoMem = s.fifoMem := rfl
@[simp] theorem raiseErr_fifoRd (c : StatusCode) (s : State) :
    (raiseErr c s).fifoRd = s.fifoRd := rfl
@[simp] theorem raiseErr_fifoWr (c : StatusCode) (s : State) :
    (raiseErr c s).fifoWr = s.fifoWr := rfl
@[simp] theorem raiseErr_fifoCount (c : StatusCode) (s : State) :
    (raiseErr c s).fifoCount = s.fifoCount := rfl
@[simp] theorem raiseErr_pkt (c : StatusCode) (s : State) :
    (raiseErr c s).pkt = s.pkt := rfl
@[simp] theorem raiseErr_pktResp (c : StatusCode) (s : State) :
    (raiseErr c s).pktResp = s.pktResp := rfl
@[simp] theorem raiseErr_rsmState (c : StatusCode) (s : State) :
    (raiseErr c s).rsmState = s.rsmState := rfl
@[simp] theorem raiseErr_rsmLen (c : StatusCode) (s : State) :
    (raiseErr c s).rsmLen = s.rsmLen := rfl
@[simp] theorem raiseErr_timers (c : StatusCode) (s : State) :
    (raiseErr c s).timers = s.timers := rfl
@[simp] theorem raiseErr_linkEst (c : StatusCode) (s : State) :
    (raiseErr c s).linkEst = s.linkEst := rfl
@[simp] theorem raiseErr_cfgRev (c : StatusCode) (s : State) :
    (raiseErr c s).cfgRev = s.cfgRev := rfl
@[simp] theorem raiseErr_devMac (c : StatusCode) (s : State) :
    (raiseErr c s).devMac = s.devMac := rfl
@[simp] theorem raiseErr_junkCnt (c : StatusCode) (s : State) :
    (raiseErr c s).junkCnt = s.junkCnt := rfl
@[simp] theorem raiseErr_ovfCnt (c : StatusCode) (s : State) :
    (raiseErr c s).ovfCnt = s.ovfCnt := rfl
@[simp] theorem raiseErr_hdrfailCnt (c : StatusCode) (s : State) :
    (raiseErr c s).hdrfailCnt = s.hdrfailCnt := rfl
@[simp] theorem raiseErr_payfailCnt (c : StatusCode) (s : State) :
    (raiseErr c s).payfailCnt = s.payfailCnt := rfl
@[simp] theorem raiseErr_frameCnt (c : StatusCode) (s : State) :
    (raiseErr c s).frameCnt = s.frameCnt := rfl
@[simp] theorem raiseErr_timeoutCnt (c : StatusCode) (s : State) :
    (raiseErr c s).timeoutCnt = s.timeoutCnt := rfl
@[simp] theorem raiseErr_status (c : StatusCode) (s : State) :
    (raiseErr c s).status = c.code := rfl
@[simp] theorem raiseErr_result (c : StatusCode) (s : State) :
    (raiseErr c s).result = 0 := rfl
@[simp] theorem raiseErr_cfg (c : StatusCode) (s : State) :
    (raiseErr c s).cfg = s.cfg := rfl
@[simp] theorem raiseErr_now (c : StatusCode) (s : State) :
    (raiseErr c s).now = s.now := rfl
@[simp] theorem raiseErr_inputs (c : StatusCode) (s : State) :
    (raiseErr c s).inputs = s.inputs := rfl

/-! ### fifoClear -/

@[simp] theorem fifoClear_fifoMem (s : State) :
    (fifoClear s).fifoMem = s.fifoMem := rfl
@[simp] theorem fifoClear_fifoRd (s : State) :
    (fifoClear s).fifoRd = 0 := rfl
@[simp] theorem fifoClear_fifoWr (s : State) :
    (fifoClear s).fifoWr = 0 := rfl
@[simp] theorem fifoClear_fifoCount (s : State) :
    (fifoClear s).fifoCount = 0 := rfl
@[simp] theorem fifoClear_pkt (s : State) :
    (fifoClear s).pkt = s.pkt := rfl
@[simp] theorem fifoClear_pktResp (s : State) :
    (fifoClear s).pktResp = s.pktResp := rfl
@[simp] theorem fifoClear_rsmState (s : State) :
    (fifoClear s).rsmState = s.rsmState := rfl
@[simp] theorem fifoClear_rsmLen (s : State) :
    (fifoClear s).rsmLen = s.rsmLen := rfl
@[simp] theorem fifoClear_timers (s : State) :
    (fifoClear s).timers = s.timers := rfl
@[simp] theorem fifoClear_linkEst (s : State) :
    (fifoClear s).linkEst = s.linkEst := rfl
@[simp] theorem fifoClear_cfgRev (s : State) :
    (fifoClear s).cfgRev = s.cfgRev := rfl
@[simp] theorem fifoClear_devMac (s : State) :
    (fifoClear s).devMac = s.devMac := rfl
@[simp] theorem fifoClear_junkCnt (s : State) :
    (fifoClear s).junkCnt = s.junkCnt := rfl
@[simp] theorem fifoClear_ovfCnt (s : State) :
    (fifoClear s).ovfCnt = s.ovfCnt := rfl
@[simp] theorem fifoClear_hdrfailCnt (s : State) :
    (fifoClear s).hdrfailCnt = s.hdrfailCnt := rfl
@[simp] theorem fifoClear_payfailCnt (s : State) :
    (fifoClear s).payfailCnt = s.payfailCnt := rfl
@[simp] theorem fifoClear_frameCnt (s : State) :
    (fifoClear s).frameCnt = s.frameCnt := rfl
@[simp] theorem fifoClear_timeoutCnt (s : State) :
    (fifoClear s).timeoutCnt = s.timeoutCnt := rfl
@[simp] theorem fifoClear_status (s : State) :
    (fifoClear s).status = s.status := rfl
@[simp] theorem fifoClear_result (s : State) :
    (fifoClear s).result = s.result := rfl
@[simp] theorem fifoClear_cfg (s : State) :
    (fifoClear s).cfg = s.cfg := rfl
@[simp] theorem fifoClear_now (s : State) :
    (fifoClear s).now = s.now := rfl
@[simp] theorem fifoClear_inputs (s : State) :
    (fifoClear s).inputs = s.inputs := rfl

/-! ### rsmClear -/

@[simp] theorem rsmClear_fifoMem (s : State) :
    (rsmClear s).fifoMem = s.fifoMem := rfl
@[simp] theorem rsmClear_fifoRd (s : State) :
    (rsmClear s).fifoRd = s.fifoRd := rfl
@[simp] theorem rsmClear_fifoWr (s : State) :
    (rsmClear s).fifoWr = s.fifoWr := rfl
@[simp] theorem rsmClear_fifoCount (s : State) :
    (rsmClear s).fifoCount = s.fifoCount := rfl
@[simp] theorem rsmClear_pkt (s : State) :
    (rsmClear s).pkt = s.pkt := rfl
@[simp] theorem rsmClear_pktResp (s : State) :
    (rsmClear s).pktResp = s.pktResp := rfl
@[simp] theorem rsmClear_rsmState (s : State) :
    (rsmClear s).rsmState = .seeking := rfl
@[simp] theorem rsmClear_rsmLen (s : State) :
    (rsmClear s).rsmLen = 0 := rfl
@[simp] theorem rsmClear_timers (s : State) :
    (rsmClear s).timers = s.timers := rfl
@[simp] theorem rsmClear_linkEst (s : State) :
    (rsmClear s).linkEst = s.linkEst := rfl
@[simp] theorem rsmClear_cfgRev (s : State) :
    (rsmClear s).cfgRev = s.cfgRev := rfl
@[simp] theorem rsmClear_devMac (s : State) :
    (rsmClear s).devMac = s.devMac := rfl
@[simp] theorem rsmClear_junkCnt (s : State) :
    (rsmClear s).junkCnt = s.junkCnt := rfl
@[simp] theorem rsmClear_ovfCnt (s : State) :
    (rsmClear s).ovfCnt = s.ovfCnt := rfl
@[simp] theorem rsmClear_hdrfailCnt (s : State) :
    (rsmClear s).hdrfailCnt = s.hdrfailCnt := rfl
@[simp] theorem rsmClear_payfailCnt (s : State) :
    (rsmClear s).payfailCnt = s.payfailCnt := rfl
@[simp] theorem rsmClear_frameCnt (s : State) :
    (rsmClear s).frameCnt = s.frameCnt := rfl
@[simp] theorem rsmClear_timeoutCnt (s : State) :
    (rsmClear s).timeoutCnt = s.timeoutCnt := rfl
@[simp] theorem rsmClear_status (s : State) :
    (rsmClear s).status = s.status := rfl
@[simp] theorem rsmClear_result (s : State) :
    (rsmClear s).result = s.result := rfl
@[simp] theorem rsmClear_cfg (s : State) :
    (rsmClear s).cfg = s.cfg := rfl
@[simp] theorem rsmClear_now (s : State) :
    (rsmClear s).now = s.now := rfl
@[simp] theorem rsmClear_inputs (s : State) :
    (rsmClear s).inputs = s.inputs := rfl

/-! ### linkTimeout -/

@[simp] theorem linkTimeout_fifoMem (s : State) :
    (linkTimeout s).fifoMem = s.fifoMem := rfl
@[simp] theorem linkTimeout_fifoRd (s : State) :
    (linkTimeout s).fifoRd = 0 := rfl
@[simp] theorem linkTimeout_fifoWr (s : State) :
    (linkTimeout s).fifoWr = 0 := rfl
@[simp] theorem linkTimeout_fifoCount (s : State) :
    (linkTimeout s).fifoCount = 0 := rfl
@[simp] theorem linkTimeout_pkt (s : State) :
    (linkTimeout s).pkt = s.pkt := rfl
@[simp] theorem linkTimeout_pktResp (s : State) :
    (linkTimeout s).pktResp = s.pktResp := rfl
@[simp] theorem linkTimeout_rsmState (s : State) :
    (linkTimeout s).rsmState = .seeking := rfl
@[simp] theorem linkTimeout_rsmLen (s : State) :
    (linkTimeout s).rsmLen = 0 := rfl
@[simp] theorem linkTimeout_timers (s : State) :
    (linkTimeout s).timers = s.timers := rfl
@[simp] theorem linkTimeout_linkEst (s : State) :
    (linkTimeout s).linkEst = false := rfl
@[simp] theorem linkTimeout_cfgRev (s : State) :
    (linkTimeout s).cfgRev = s.cfgRev := rfl
@[simp] theorem linkTimeout_devMac (s : State) :
    (linkTimeout s).devMac = s.devMac := rfl
@[simp] theorem linkTimeout_junkCnt (s : State) :
    (linkTimeout s).junkCnt = s.junkCnt := rfl
@[simp] theorem linkTimeout_ovfCnt (s : State) :
    (linkTimeout s).ovfCnt = s.ovfCnt := rfl
@[simp] theorem linkTimeout_hdrfailCnt (s : State) :
    (linkTimeout s).hdrfailCnt = s.hdrfailCnt := rfl
@[simp] theorem linkTimeout_payfailCnt (s : State) :
    (linkTimeout s).payfailCnt = s.payfailCnt := rfl
@[simp] theorem linkTimeout_frameCnt (s : State) :
    (linkTimeout s).frameCnt = s.frameCnt := rfl
@[simp] theorem linkTimeout_timeoutCnt (s : State) :
    (linkTimeout s).timeoutCnt = s.timeoutCnt + 1 := rfl
@[simp] theorem linkTimeout_status (s : State) :
    (linkTimeout s).status = s.status := rfl
@[simp] theorem linkTimeout_result (s : State) :
    (linkTimeout s).result = s.result := rfl
@[simp] theorem linkTimeout_cfg (s : State) :
    (linkTimeout s).cfg = s.cfg := rfl
@[simp] theorem linkTimeout_now (s : State) :
    (linkTimeout s).now = s.now := rfl
@[simp] theorem linkTimeout_inputs (s : State) :
    (linkTimeout s).inputs = s.inputs := rfl

/-! ### pktPut -/

@[simp] theorem pktPut_fifoMem (i : Nat) (b : Byte) (s : State) :
    (pktPut i b s).fifoMem = s.fifoMem := rfl
@[simp] theorem pktPut_fifoRd (i : Nat) (b : Byte) (s : State) :
    (pktPut i b s).fifoRd = s.fifoRd := rfl
@[simp] theorem pktPut_fifoWr (i : Nat) (b : Byte) (s : State) :
    (pktPut i b s).fifoWr = s.fifoWr := rfl
@[simp] theorem pktPut_fifoCount (i : Nat) (b : Byte) (s : State) :
    (pktPut i b s).fifoCount = s.fifoCount := rfl
@[simp] theorem pktPut_pkt (i : Nat) (b : Byte) (s : State) :
    (pktPut i b s).pkt = Memory.write s.pkt i b := rfl
@[simp] theorem pktPut_pktResp (i : Nat) (b : Byte) (s : State) :
    (pktPut i b s).pktResp = s.pktResp := rfl
@[simp] theorem pktPut_rsmState (i : Nat) (b : Byte) (s : State) :
    (pktPut i b s).rsmState = s.rsmState := rfl
@[simp] theorem pktPut_rsmLen (i : Nat) (b : Byte) (s : State) :
    (pktPut i b s).rsmLen = s.rsmLen := rfl
@[simp] theorem pktPut_timers (i : Nat) (b : Byte) (s : State) :
    (pktPut i b s).timers = s.timers := rfl
@[simp] theorem pktPut_linkEst (i : Nat) (b : Byte) (s : State) :
    (pktPut i b s).linkEst = s.linkEst := rfl
@[simp] theorem pktPut_cfgRev (i : Nat) (b : Byte) (s : State) :
    (pktPut i b s).cfgRev = s.cfgRev := rfl
@[simp] theorem pktPut_devMac (i : Nat) (b : Byte) (s : State) :
    (pktPut i b s).devMac = s.devMac := rfl
@[simp] theorem pktPut_junkCnt (i : Nat) (b : Byte) (s : State) :
    (pktPut i b s).junkCnt = s.junkCnt := rfl
@[simp] theorem pktPut_ovfCnt (i : Nat) (b : Byte) (s : State) :
    (pktPut i b s).ovfCnt = s.ovfCnt := rfl
@[simp] theorem pktPut_hdrfailCnt (i : Nat) (b : Byte) (s : State) :
    (pktPut i b s).hdrfailCnt = s.hdrfailCnt := rfl
@[simp] theorem pktPut_payfailCnt (i : Nat) (b : Byte) (s : State) :
    (pktPut i b s).payfailCnt = s.payfailCnt := rfl
@[simp] theorem pktPut_frameCnt (i : Nat) (b : Byte) (s : State) :
    (pktPut i b s).frameCnt = s.frameCnt := rfl
@[simp] theorem pktPut_timeoutCnt (i : Nat) (b : Byte) (s : State) :
    (pktPut i b s).timeoutCnt = s.timeoutCnt := rfl
@[simp] theorem pktPut_status (i : Nat) (b : Byte) (s : State) :
    (pktPut i b s).status = s.status := rfl
@[simp] theorem pktPut_result (i : Nat) (b : Byte) (s : State) :
    (pktPut i b s).result = s.result := rfl
@[simp] theorem pktPut_cfg (i : Nat) (b : Byte) (s : State) :
    (pktPut i b s).cfg = s.cfg := rfl
@[simp] theorem pktPut_now (i : Nat) (b : Byte) (s : State) :
    (pktPut i b s).now = s.now := rfl
@[simp] theorem pktPut_inputs (i : Nat) (b : Byte) (s : State) :
    (pktPut i b s).inputs = s.inputs := rfl

/-! ### setTimer -/

@[simp] theorem setTimer_fifoMem (t : Nat) (tm : Timer) (s : State) :
    (setTimer t tm s).fifoMem = s.fifoMem := rfl
@[simp] theorem setTimer_fifoRd (t : Nat) (tm : Timer) (s : State) :
    (setTimer t tm s).fifoRd = s.fifoRd := rfl
@[simp] theorem setTimer_fifoWr (t : Nat) (tm : Timer) (s : State) :
    (setTimer t tm s).fifoWr = s.fifoWr := rfl
@[simp] theorem setTimer_fifoCount (t : Nat) (tm : Timer) (s : State) :
    (setTimer t tm s).fifoCount = s.fifoCount := rfl
@[simp] theorem setTimer_pkt (t : Nat) (tm : Timer) (s : State) :
    (setTimer t tm s).pkt = s.pkt := rfl
@[simp] theorem setTimer_pktResp (t : Nat) (tm : Timer) (s : State) :
    (setTimer t tm s).pktResp = s.pktResp := rfl
@[simp] theorem setTimer_rsmState (t : Nat) (tm : Timer) (s : State) :
    (setTimer t tm s).rsmState = s.rsmState := rfl
@[simp] theorem setTimer_rsmLen (t : Nat) (tm : Timer) (s : State) :
    (setTimer t tm s).rsmLen = s.rsmLen := rfl
@[simp] theorem setTimer_timers (t : Nat) (tm : Timer) (s : State) :
    (setTimer t tm s).timers = s.timers.set t tm := rfl
@[simp] theorem setTimer_linkEst (t : Nat) (tm : Timer) (s : State) :
    (setTimer t tm s).linkEst = s.linkEst := rfl
@[simp] theorem setTimer_cfgRev (t : Nat) (tm : Timer) (s : State) :
    (setTimer t tm s).cfgRev = s.cfgRev := rfl
@[simp] theorem setTimer_devMac (t : Nat) (tm : Timer) (s : State) :
    (setTimer t tm s).devMac = s.devMac := rfl
@[simp] theorem setTimer_junkCnt (t : Nat) (tm : Timer) (s : State) :
    (setTimer t tm s).junkCnt = s.junkCnt := rfl
@[simp] theorem setTimer_ovfCnt (t : Nat) (tm : Timer) (s : State) :
    (setTimer t tm s).ovfCnt = s.ovfCnt := rfl
@[simp] theorem setTimer_hdrfailCnt (t : Nat) (tm : Timer) (s : State) :
    (setTimer t tm s).hdrfailCnt = s.hdrfailCnt := rfl
@[simp] theorem setTimer_payfailCnt (t : Nat) (tm : Timer) (s : State) :
    (setTimer t tm s).payfailCnt = s.payfailCnt := rfl
@[simp] theorem setTimer_frameCnt (t : Nat) (tm : Timer) (s : State) :
    (setTimer t tm s).frameCnt = s.frameCnt := rfl
@[simp] theorem setTimer_timeoutCnt (t : Nat) (tm : Timer) (s : State) :
    (setTimer t tm s).timeoutCnt = s.timeoutCnt := rfl
@[simp] theorem setTimer_status (t : Nat) (tm : Timer) (s : State) :
    (setTimer t tm s).status = s.status := rfl
@[simp] theorem setTimer_result (t : Nat) (tm : Timer) (s : State) :
    (setTimer t tm s).result = s.result := rfl
@[simp] theorem setTimer_cfg (t : Nat) (tm : Timer) (s : State) :
    (setTimer t tm s).cfg = s.cfg := rfl
@[simp] theorem setTimer_now (t : Nat) (tm : Timer) (s : State) :
    (setTimer t tm s).now = s.now := rfl
@[simp] theorem setTimer_inputs (t : Nat) (tm : Timer) (s : State) :
    (setTimer t tm s).inputs = s.inputs := rfl

/-! ### setLast -/

@[simp] theorem setLast_fifoMem (t : Nat) (w : Word) (s : State) :
    (setLast t w s).fifoMem = s.fifoMem := rfl
@[simp] theorem setLast_fifoRd (t : Nat) (w : Word) (s : State) :
    (setLast t w s).fifoRd = s.fifoRd := rfl
@[simp] theorem setLast_fifoWr (t : Nat) (w : Word) (s : State) :
    (setLast t w s).fifoWr = s.fifoWr := rfl
@[simp] theorem setLast_fifoCount (t : Nat) (w : Word) (s : State) :
    (setLast t w s).fifoCount = s.fifoCount := rfl
@[simp] theorem setLast_pkt (t : Nat) (w : Word) (s : State) :
    (setLast t w s).pkt = s.pkt := rfl
@[simp] theorem setLast_pktResp (t : Nat) (w : Word) (s : State) :
    (setLast t w s).pktResp = s.pktResp := rfl
@[simp] theorem setLast_rsmState (t : Nat) (w : Word) (s : State) :
    (setLast t w s).rsmState = s.rsmState := rfl
@[simp] theorem setLast_rsmLen (t : Nat) (w : Word) (s : State) :
    (setLast t w s).rsmLen = s.rsmLen := rfl
@[simp] theorem setLast_timers (t : Nat) (w : Word) (s : State) :
    (setLast t w s).timers = s.timers.set t { timerAt s t with last := w } := rfl
@[simp] theorem setLast_linkEst (t : Nat) (w : Word) (s : State) :
    (setLast t w s).linkEst = s.linkEst := rfl
@[simp] theorem setLast_cfgRev (t : Nat) (w : Word) (s : State) :
    (setLast t w s).cfgRev = s.cfgRev := rfl
@[simp] theorem setLast_devMac (t : Nat) (w : Word) (s : State) :
    (setLast t w s).devMac = s.devMac := rfl
@[simp] theorem setLast_junkCnt (t : Nat) (w : Word) (s : State) :
    (setLast t w s).junkCnt = s.junkCnt := rfl
@[simp] theorem setLast_ovfCnt (t : Nat) (w : Word) (s : State) :
    (setLast t w s).ovfCnt = s.ovfCnt := rfl
@[simp] theorem setLast_hdrfailCnt (t : Nat) (w : Word) (s : State) :
    (setLast t w s).hdrfailCnt = s.hdrfailCnt := rfl
@[simp] theorem setLast_payfailCnt (t : Nat) (w : Word) (s : State) :
    (setLast t w s).payfailCnt = s.payfailCnt := rfl
@[simp] theorem setLast_frameCnt (t : Nat) (w : Word) (s : State) :
    (setLast t w s).frameCnt = s.frameCnt := rfl
@[simp] theorem setLast_timeoutCnt (t : Nat) (w : Word) (s : State) :
    (setLast t w s).timeoutCnt = s.timeoutCnt := rfl
@[simp] theorem setLast_status (t : Nat) (w : Word) (s : State) :
    (setLast t w s).status = s.status := rfl
@[simp] theorem setLast_result (t : Nat) (w : Word) (s : State) :
    (setLast t w s).result = s.result := rfl
@[simp] theorem setLast_cfg (t : Nat) (w : Word) (s : State) :
    (setLast t w s).cfg = s.cfg := rfl
@[simp] theorem setLast_now (t : Nat) (w : Word) (s : State) :
    (setLast t w s).now = s.now := rfl
@[simp] theorem setLast_inputs (t : Nat) (w : Word) (s : State) :
    (setLast t w s).inputs = s.inputs := rfl

/-! ### sampleNow -/

@[simp] theorem sampleNow_fifoMem (w : Word) (rest : List PortEvent) (s : State) :
    (sampleNow w rest s).fifoMem = s.fifoMem := rfl
@[simp] theorem sampleNow_fifoRd (w : Word) (rest : List PortEvent) (s : State) :
    (sampleNow w rest s).fifoRd = s.fifoRd := rfl
@[simp] theorem sampleNow_fifoWr (w : Word) (rest : List PortEvent) (s : State) :
    (sampleNow w rest s).fifoWr = s.fifoWr := rfl
@[simp] theorem sampleNow_fifoCount (w : Word) (rest : List PortEvent) (s : State) :
    (sampleNow w rest s).fifoCount = s.fifoCount := rfl
@[simp] theorem sampleNow_pkt (w : Word) (rest : List PortEvent) (s : State) :
    (sampleNow w rest s).pkt = s.pkt := rfl
@[simp] theorem sampleNow_pktResp (w : Word) (rest : List PortEvent) (s : State) :
    (sampleNow w rest s).pktResp = s.pktResp := rfl
@[simp] theorem sampleNow_rsmState (w : Word) (rest : List PortEvent) (s : State) :
    (sampleNow w rest s).rsmState = s.rsmState := rfl
@[simp] theorem sampleNow_rsmLen (w : Word) (rest : List PortEvent) (s : State) :
    (sampleNow w rest s).rsmLen = s.rsmLen := rfl
@[simp] theorem sampleNow_timers (w : Word) (rest : List PortEvent) (s : State) :
    (sampleNow w rest s).timers = s.timers := rfl
@[simp] theorem sampleNow_linkEst (w : Word) (rest : List PortEvent) (s : State) :
    (sampleNow w rest s).linkEst = s.linkEst := rfl
@[simp] theorem sampleNow_cfgRev (w : Word) (rest : List PortEvent) (s : State) :
    (sampleNow w rest s).cfgRev = s.cfgRev := rfl
@[simp] theorem sampleNow_devMac (w : Word) (rest : List PortEvent) (s : State) :
    (sampleNow w rest s).devMac = s.devMac := rfl
@[simp] theorem sampleNow_junkCnt (w : Word) (rest : List PortEvent) (s : State) :
    (sampleNow w rest s).junkCnt = s.junkCnt := rfl
@[simp] theorem sampleNow_ovfCnt (w : Word) (rest : List PortEvent) (s : State) :
    (sampleNow w rest s).ovfCnt = s.ovfCnt := rfl
@[simp] theorem sampleNow_hdrfailCnt (w : Word) (rest : List PortEvent) (s : State) :
    (sampleNow w rest s).hdrfailCnt = s.hdrfailCnt := rfl
@[simp] theorem sampleNow_payfailCnt (w : Word) (rest : List PortEvent) (s : State) :
    (sampleNow w rest s).payfailCnt = s.payfailCnt := rfl
@[simp] theorem sampleNow_frameCnt (w : Word) (rest : List PortEvent) (s : State) :
    (sampleNow w rest s).frameCnt = s.frameCnt := rfl
@[simp] theorem sampleNow_timeoutCnt (w : Word) (rest : List PortEvent) (s : State) :
    (sampleNow w rest s).timeoutCnt = s.timeoutCnt := rfl
@[simp] theorem sampleNow_status (w : Word) (rest : List PortEvent) (s : State) :
    (sampleNow w rest s).status = s.status := rfl
@[simp] theorem sampleNow_result (w : Word) (rest : List PortEvent) (s : State) :
    (sampleNow w rest s).result = s.result := rfl
@[simp] theorem sampleNow_cfg (w : Word) (rest : List PortEvent) (s : State) :
    (sampleNow w rest s).cfg = s.cfg := rfl
@[simp] theorem sampleNow_now (w : Word) (rest : List PortEvent) (s : State) :
    (sampleNow w rest s).now = w := rfl
@[simp] theorem sampleNow_inputs (w : Word) (rest : List PortEvent) (s : State) :
    (sampleNow w rest s).inputs = rest := rfl

end Sys2Proof.Machine
end

