-- ==== Sys2Proof/Laws/Fifo.lean ====
section
/-! SUPPORT. What the FIFO primitives do, said once: the FIFO is the queue `fifoHeld`, and every
primitive keeps the cursors and the count in range and in agreement (10_state.md R23, R24). -/

namespace Sys2Proof

/-- R8 as inequalities. -/
theorem Config.legal_iff (c : Config) :
    c.legal = true ↔
      16 ≤ c.maxFrame ∧ c.maxFrame ≤ c.fifoCap ∧ c.fifoCap ≤ 65535 ∧ 1 ≤ c.nTimers ∧
        c.nTimers ≤ 16 := by
  simp only [Config.legal, Config.frameHoldsMinimum, Config.fifoHoldsFrame, Config.fifoCapFits,
    Config.timerCountLegal, Bool.and_eq_true, decide_eq_true_eq, minFrame, hdrSize, pckSize]
  omega

end Sys2Proof

namespace Sys2Proof.Machine

@[simp] theorem fifoHeld_length (s : State) : (fifoHeld s).length = s.fifoCount.toNat := by
  simp [fifoHeld]

theorem fifoHeld_getElem (s : State) (k : Nat) (h : k < (fifoHeld s).length) :
    (fifoHeld s)[k] = fifoByte s k := by
  simp [fifoHeld]

theorem fifoHeld_nil_iff (s : State) : fifoHeld s = [] ↔ s.fifoCount = 0 := by
  rw [← List.length_eq_zero_iff, fifoHeld_length]
  exact ⟨fun h => BitVec.eq_of_toNat_eq (by simpa using h), fun h => by simp [h]⟩

/-- A peek of a held byte is that byte of the queue. -/
theorem fifoPeek_held {s : State} {k : Nat} (h : k < s.fifoCount.toNat) :
    fifoPeek s k = .ok ((fifoHeld s)[k]'(by simpa using h)) := by
  simp [fifoPeek, h, fifoHeld_getElem]

/-- A peek of the first `n` held bytes is the front of the queue. -/
theorem fifoPeekMany_held {s : State} {n : Nat} (h : n ≤ s.fifoCount.toNat) :
    fifoPeekMany s n = .ok ((fifoHeld s).take n) := by
  simp [fifoPeekMany, h, fifoHeld, ← List.map_take, List.take_range]

theorem cursorNext_toNat {c : Config} (hc : c.legal = true) (p : Half) :
    (cursorNext c p).toNat = (p.toNat + 1) % c.fifoCap := by
  have h := c.legal_iff.mp hc
  have hlt := Nat.mod_lt (p.toNat + 1) (show 0 < c.fifoCap by omega)
  simp only [cursorNext, BitVec.toNat_ofNat]
  omega

/-- `FifoDrop()` on a FIFO that holds a byte: the queue loses its head. -/
theorem fifoDrop_spec {s : State} (hc : s.cfg.legal = true) (hg : FifoGood s)
    (h : s.fifoCount ≠ 0) :
    ∃ t, fifoDrop s = .ok t ∧ fifoHeld s = fifoByte s 0 :: fifoHeld t ∧ FifoGood t ∧
      t = { s with fifoRd := t.fifoRd, fifoCount := s.fifoCount - 1 } := by
  refine ⟨{ s with fifoRd := cursorNext s.cfg s.fifoRd, fifoCount := s.fifoCount - 1 },
    by rw [fifoDrop, if_neg h], ?_, ?_, rfl⟩
  · have hpos : s.fifoCount.toNat ≠ 0 := fun h0 => h (BitVec.eq_of_toNat_eq (by simpa using h0))
    have hsub : (s.fifoCount - 1).toNat = s.fifoCount.toNat - 1 := by
      have := s.fifoCount.isLt
      simp [BitVec.toNat_sub]; omega
    apply List.ext_getElem
    · simp only [fifoHeld_length, List.length_cons, hsub]; omega
    · intro k h1 h2
      rw [fifoHeld_getElem]
      cases k with
      | zero => rfl
      | succ k =>
        rw [List.getElem_cons_succ, fifoHeld_getElem]
        simp only [fifoByte, fifoSlot, cursorNext_toNat hc, Nat.mod_add_mod]
        congr 2
        omega
  · obtain ⟨h1, h2, h3, h4⟩ := hg
    have hcap := s.cfg.legal_iff.mp hc
    have hpos : s.fifoCount.toNat ≠ 0 := fun h0 => h (BitVec.eq_of_toNat_eq (by simpa using h0))
    have hsub : (s.fifoCount - 1).toNat = s.fifoCount.toNat - 1 := by
      have := s.fifoCount.isLt
      simp [BitVec.toNat_sub]; omega
    refine ⟨?_, h2, ?_, ?_⟩
    · simpa [cursorNext_toNat hc] using Nat.mod_lt _ (by omega)
    · simp only [hsub]; omega
    · simp only [cursorNext_toNat hc, hsub, Nat.mod_add_mod]
      rw [h4]; congr 1; omega

/-- `FifoDrop()` repeated: the queue loses its first `n` bytes. -/
theorem fifoDropMany_spec {n : Nat} {s : State} (hc : s.cfg.legal = true) (hg : FifoGood s)
    (h : n ≤ s.fifoCount.toNat) :
    ∃ t, fifoDropMany n s = .ok t ∧ fifoHeld t = (fifoHeld s).drop n ∧ FifoGood t ∧
      t.fifoCount.toNat = s.fifoCount.toNat - n ∧
      t = { s with fifoRd := t.fifoRd, fifoCount := t.fifoCount } := by
  induction n generalizing s with
  | zero => exact ⟨s, rfl, by simp, hg, by simp, rfl⟩
  | succ n ih =>
    have h0 : s.fifoCount ≠ 0 := fun h0 => by simp [h0] at h
    obtain ⟨u, hu, hh, hgu, hfu⟩ := fifoDrop_spec hc hg h0
    have hcnt : u.fifoCount.toNat = s.fifoCount.toNat - 1 := by
      have := congrArg List.length hh
      simp at this
      omega
    obtain ⟨t, ht, hht, hgt, hct, hft⟩ := ih (s := u) (by rw [hfu]; exact hc) hgu (by omega)
    refine ⟨t, by simp [fifoDropMany, hu, ht], by rw [hht, hh]; rfl, hgt, by omega, ?_⟩
    rw [hft, hfu]

/-- `FifoPut(b)` on a full FIFO: the byte is dropped and counted. -/
theorem fifoPut_full {s : State} (b : Byte) (h : s.fifoCount.toNat = s.cfg.fifoCap) :
    fifoPut b s = (.overflow, { s with ovfCnt := s.ovfCnt + 1 }) := by
  simp [fifoPut, fifoFull, h]

/-- `FifoPut(b)` with room: the queue gains `b` at its end, by one stored byte. -/
theorem fifoPut_room {s : State} (b : Byte) (hc : s.cfg.legal = true) (hg : FifoGood s)
    (hm : Memory.wf s.fifoMem) (h : s.fifoCount.toNat < s.cfg.fifoCap) :
    ∃ t, fifoPut b s = (.ok, t) ∧ fifoHeld t = fifoHeld s ++ [b] ∧ FifoGood t ∧
      t.fifoCount.toNat = s.fifoCount.toNat + 1 ∧
      t = { s with
        fifoMem := Memory.write s.fifoMem s.fifoWr.toNat b
        fifoWr := t.fifoWr
        fifoCount := s.fifoCount + 1 } := by
  obtain ⟨h1, h2, h3, h4⟩ := hg
  have hcap := s.cfg.legal_iff.mp hc
  have hadd : (s.fifoCount + 1).toNat = s.fifoCount.toNat + 1 := by
    simp [BitVec.toNat_add]; omega
  refine ⟨{ s with
      fifoMem := Memory.write s.fifoMem s.fifoWr.toNat b
      fifoWr := cursorNext s.cfg s.fifoWr
      fifoCount := s.fifoCount + 1 }, ?_, ?_, ?_, hadd, rfl⟩
  · have : fifoFull s = false := by simp [fifoFull]; omega
    simp [fifoPut, this]
  · apply List.ext_getElem
    · simp only [fifoHeld_length, List.length_append, List.length_cons, List.length_nil]; omega
    · intro k hk1 hk2
      rw [fifoHeld_getElem]
      simp only [fifoHeld_length, hadd] at hk1
      simp only [fifoByte, fifoSlot, Memory.read_write hm, h4]
      by_cases hk : k = s.fifoCount.toNat
      · subst hk
        simp
      · have hne : (s.fifoRd.toNat + k) % s.cfg.fifoCap ≠
            (s.fifoRd.toNat + s.fifoCount.toNat) % s.cfg.fifoCap := by
          intro he
          rcases Nat.lt_or_ge (s.fifoRd.toNat + k) s.cfg.fifoCap with ha | ha <;>
          rcases Nat.lt_or_ge (s.fifoRd.toNat + s.fifoCount.toNat) s.cfg.fifoCap with hb | hb
          · rw [Nat.mod_eq_of_lt ha, Nat.mod_eq_of_lt hb] at he; omega
          · rw [Nat.mod_eq_of_lt ha, Nat.mod_eq_sub_mod hb, Nat.mod_eq_of_lt (by omega)] at he
            omega
          · omega
          · rw [Nat.mod_eq_sub_mod ha, Nat.mod_eq_sub_mod hb, Nat.mod_eq_of_lt (by omega),
              Nat.mod_eq_of_lt (by omega)] at he
            omega
        rw [if_neg hne, List.getElem_append_left (by simp; omega), fifoHeld_getElem]
        rfl
  · refine ⟨h1, ?_, by simp only [hadd]; omega, ?_⟩
    · simpa [cursorNext_toNat hc] using Nat.mod_lt _ (by omega)
    · simp only [cursorNext_toNat hc, hadd, h4, Nat.mod_add_mod, Nat.add_assoc]

/-- `FifoClear()`: the queue is empty. -/
theorem fifoHeld_clear (s : State) : fifoHeld (fifoClear s) = [] := by
  simp [fifoHeld_nil_iff]

theorem fifoGood_clear {s : State} (hc : s.cfg.legal = true) : FifoGood (fifoClear s) := by
  have h := s.cfg.legal_iff.mp hc
  simp [FifoGood]
  omega

/-- `fifoHeld` depends on the storage, the read cursor, the count and the capacity only. -/
theorem fifoHeld_congr {s t : State} (hm : t.fifoMem = s.fifoMem) (hr : t.fifoRd = s.fifoRd)
    (hn : t.fifoCount = s.fifoCount) (hc : t.cfg.fifoCap = s.cfg.fifoCap) :
    fifoHeld t = fifoHeld s := by
  have : fifoByte t = fifoByte s := by
    funext k
    simp [fifoByte, fifoSlot, hm, hr, hc]
  simp [fifoHeld, hn, this]

end Sys2Proof.Machine
end

