-- ==== Sys2Proof/Laws/Ops.lean ====
section
/-! SUPPORT. What the shared operations over the packet buffer, the timers, the CSRs and the received
byte do, said once for each. -/

namespace Sys2Proof.Machine

/-! ### The packet buffer -/

@[simp] theorem pktByte_put {s : State} (hm : Memory.wf s.pkt) (i j : Nat) (b : Byte) :
    pktByte (pktPut i b s) j = if j = i then b else pktByte s j := by
  simp [pktByte, Memory.read_write hm]

/-- `MemWrite` changes nothing but PKT. -/
theorem pktPutMany_frame (l : List Byte) (i : Nat) (s : State) :
    pktPutMany i l s = { s with pkt := (pktPutMany i l s).pkt } := by
  induction l generalizing i s with
  | nil => rfl
  | cons b bs ih =>
    rw [pktPutMany, ih]
    rfl

theorem pktPutMany_wf {s : State} (hm : Memory.wf s.pkt) (l : List Byte) (i : Nat) :
    Memory.wf (pktPutMany i l s).pkt := by
  induction l generalizing i s with
  | nil => exact hm
  | cons b bs ih => exact ih (Memory.wf_write hm i b) (i + 1)

theorem pktPutMany_below {s : State} {n : Nat} (hm : Memory.below s.pkt n) (l : List Byte) (i : Nat)
    (h : i + l.length ≤ n) : Memory.below (pktPutMany i l s).pkt n := by
  induction l generalizing i s with
  | nil => exact hm
  | cons b bs ih =>
    simp only [List.length_cons] at h
    exact ih (Memory.below_write hm (by omega) b) (i + 1) (by omega)

/-- `MemWrite(PKT, i, n, L)`: the listed bytes from `i` on, every other byte as before. -/
theorem pktByte_putMany {s : State} (hm : Memory.wf s.pkt) (l : List Byte) (i j : Nat) :
    pktByte (pktPutMany i l s) j =
      if i ≤ j ∧ j < i + l.length then l.getD (j - i) 0 else pktByte s j := by
  induction l generalizing i s with
  | nil => simp [pktPutMany]
  | cons b bs ih =>
    rw [pktPutMany, ih (Memory.wf_write hm i b), pktByte_put hm]
    rcases Nat.lt_trichotomy j i with h | h | h
    · rw [if_neg (by omega), if_neg (by omega), if_neg (by simp; omega)]
    · subst h
      simp
    · obtain ⟨k, rfl⟩ : ∃ k, j = i + 1 + k := ⟨j - (i + 1), by omega⟩
      simp only [List.length_cons]
      by_cases hk : k < bs.length
      · rw [if_pos (by omega), if_pos (by omega)]
        have h1 : i + 1 + k - (i + 1) = k := by omega
        have h2 : i + 1 + k - i = k + 1 := by omega
        simp [h1, h2]
      · rw [if_neg (by omega), if_neg (by omega), if_neg (by omega)]

theorem pktBytes_length (s : State) (i n : Nat) : (pktBytes s i n).length = n := by
  simp [pktBytes]

/-- Two states that agree on bytes `i` to `i+n-1` of PKT read the same list there. -/
theorem pktBytes_congr {s t : State} {i n : Nat}
    (h : ∀ j, i ≤ j → j < i + n → pktByte t j = pktByte s j) : pktBytes t i n = pktBytes s i n := by
  simp only [pktBytes, List.map_inj_left, List.mem_range]
  intro j hj
  exact h (i + j) (by omega) (by omega)

/-! ### The timer file -/

theorem timers_setLast_length (t : Nat) (w : Word) (s : State) :
    (setLast t w s).timers.length = s.timers.length := by simp

theorem timerAt_setLast {s : State} {t : Nat} (h : t < s.timers.length) (w : Word) (j : Nat) :
    timerAt (setLast t w s) j =
      if j = t then { timerAt s t with last := w } else timerAt s j := by
  simp only [timerAt, setLast_timers, List.getD_eq_getElem?_getD, List.getElem?_set]
  by_cases hj : j = t
  · subst hj; simp [h]
  · simp [Ne.symm hj, hj]

/-- Everything `TryFire(t)` can do (42_timer.md R91). -/
theorem tryFire_cases (t : Nat) (s : State) :
    (s.now.toNat < (timerAt s t).last.toNat ∧ tryFire t s = (.notFired, setLast t s.now s)) ∨
    ((timerAt s t).last.toNat ≤ s.now.toNat ∧
      fires s.cfg.tmrCmp (s.now.toNat - (timerAt s t).last.toNat) (timerAt s t).intv.toNat = false ∧
      tryFire t s = (.notFired, s)) ∨
    ((timerAt s t).last.toNat ≤ s.now.toNat ∧
      fires s.cfg.tmrCmp (s.now.toNat - (timerAt s t).last.toNat) (timerAt s t).intv.toNat = true ∧
      (timerAt s t).intv.toNat <
        s.now.toNat - (timerAt s t).last.toNat - (timerAt s t).intv.toNat ∧
      tryFire t s =
        (.fired (BitVec.ofNat 32
          (s.now.toNat - (timerAt s t).last.toNat - (timerAt s t).intv.toNat)),
          setLast t s.now s)) ∨
    ((timerAt s t).last.toNat ≤ s.now.toNat ∧
      fires s.cfg.tmrCmp (s.now.toNat - (timerAt s t).last.toNat) (timerAt s t).intv.toNat = true ∧
      s.now.toNat - (timerAt s t).last.toNat - (timerAt s t).intv.toNat ≤
        (timerAt s t).intv.toNat ∧
      tryFire t s =
        (.fired (BitVec.ofNat 32
          (s.now.toNat - (timerAt s t).last.toNat - (timerAt s t).intv.toNat)),
          setLast t (BitVec.ofNat 32 ((timerAt s t).last.toNat + (timerAt s t).intv.toNat)) s)) := by
  by_cases h1 : s.now.toNat < (timerAt s t).last.toNat
  · exact .inl ⟨h1, by simp only [tryFire]; rw [if_pos h1]⟩
  · have h1' : (timerAt s t).last.toNat ≤ s.now.toNat := by omega
    by_cases h2 : fires s.cfg.tmrCmp (s.now.toNat - (timerAt s t).last.toNat)
        (timerAt s t).intv.toNat = true
    · by_cases h3 : (timerAt s t).intv.toNat <
          s.now.toNat - (timerAt s t).last.toNat - (timerAt s t).intv.toNat
      · refine .inr (.inr (.inl ⟨h1', h2, h3, ?_⟩))
        simp only [tryFire]; rw [if_neg h1, if_pos h2, if_pos h3]
      · refine .inr (.inr (.inr ⟨h1', h2, by omega, ?_⟩))
        simp only [tryFire]; rw [if_neg h1, if_pos h2, if_neg h3]
    · refine .inr (.inl ⟨h1', by simpa using h2, ?_⟩)
      simp only [tryFire]; rw [if_neg h1, if_neg h2]

/-- A firing check changes nothing but the timer file, and keeps its length. -/
theorem tryFire_frame (t : Nat) (s : State) :
    (tryFire t s).2 = { s with timers := (tryFire t s).2.timers } ∧
      (tryFire t s).2.timers.length = s.timers.length := by
  rcases tryFire_cases t s with ⟨-, h⟩ | ⟨-, -, h⟩ | ⟨-, -, -, h⟩ | ⟨-, -, -, h⟩ <;> rw [h] <;>
    exact ⟨rfl, by simp⟩

/-- The watchdog check is the firing check of timer 0, and `LinkTimeout()` after it when it fired. -/
theorem checkTimeout_cases (s : State) :
    ((tryFire 0 s).1 = .notFired ∧ checkTimeout s = (.notFired, (tryFire 0 s).2)) ∨
    (∃ v, (tryFire 0 s).1 = .fired v ∧ checkTimeout s = (.fired v, linkTimeout (tryFire 0 s).2)) := by
  rcases h : tryFire 0 s with ⟨f, t⟩
  cases f with
  | notFired => exact .inl ⟨rfl, by simp [checkTimeout, h]⟩
  | fired v => exact .inr ⟨v, rfl, by simp [checkTimeout, h]⟩

/-! ### The received byte -/

/-- A received byte is the FIFO's put and the watchdog's restart (45_link.md R133, R134). -/
theorem receiveByte_eq (b : Byte) (s : State) :
    receiveByte b s = ((fifoPut b s).1, setLast 0 s.now (fifoPut b s).2) := rfl

/-! ### CSRs -/

/-- A CSR write changes none of what it does not name: only `CFG_REV`, `DEV_MAC` and the six counters
can change (46_csr.md R142). -/
theorem csrWrite_frame (c : Csr) (d : Word) (s : State) :
    csrWrite c d s = { s with
      cfgRev := (csrWrite c d s).cfgRev
      devMac := (csrWrite c d s).devMac
      junkCnt := (csrWrite c d s).junkCnt
      ovfCnt := (csrWrite c d s).ovfCnt
      hdrfailCnt := (csrWrite c d s).hdrfailCnt
      payfailCnt := (csrWrite c d s).payfailCnt
      frameCnt := (csrWrite c d s).frameCnt
      timeoutCnt := (csrWrite c d s).timeoutCnt } := by
  cases c <;> rfl

/-- A field write changes nothing but PKT and `pkt_resp` (43_frame.md R104). -/
theorem fieldWrite_frame (f : Field) (d : Word) (s : State) :
    fieldWrite f d s = { s with
      pkt := (pktPutMany (fieldOffset f s) (fieldBytes f d s) s).pkt
      pktResp := fieldResp f d s } := by
  rw [fieldWrite, pktPutMany_frame]

end Sys2Proof.Machine
end

