-- ==== Sys2Proof/Laws/Invariant.lean ====
section
/-! SUPPORT. The invariant as a conjunction that can be evaluated, and how the operations that change
one part of the state carry it. -/

namespace Sys2Proof.Machine

/-- The invariant, spelt as one decidable conjunction. -/
theorem inv_iff (s : State) :
    Inv s ↔ s.cfg.legal = true ∧ FifoGood s ∧ StorageGood s ∧ RsmGood s ∧ TimersGood s ∧
      StatusGood s :=
  ⟨fun h => ⟨h.legal, h.fifo, h.storage, h.rsm, h.timers, h.status⟩,
    fun ⟨h1, h2, h3, h4, h5, h6⟩ => ⟨h1, h2, h3, h4, h5, h6⟩⟩

/-- Every status code is one that the block produces. -/
theorem code_produced (c : StatusCode) : c.code ∈ producedCodes := by
  cases c <;> decide

/-- A response keeps the invariant. -/
theorem inv_respond {s : State} (h : Inv s) (c : StatusCode) (r : Word) : Inv (respond c r s) :=
  ⟨h.legal, h.fifo, h.storage, h.rsm, h.timers, code_produced c⟩

/-- Sampling an event keeps the invariant. -/
theorem inv_sampleNow {s : State} (h : Inv s) (w : Word) (rest : List PortEvent) :
    Inv (sampleNow w rest s) :=
  ⟨h.legal, h.fifo, h.storage, h.rsm, h.timers, h.status⟩

/-- Setting a timer keeps the invariant. -/
theorem inv_setTimer {s : State} (h : Inv s) (t : Nat) (tm : Timer) : Inv (setTimer t tm s) :=
  ⟨h.legal, h.fifo, h.storage, h.rsm, by have := h.timers; simpa [TimersGood] using this, h.status⟩

/-- A byte written inside PKT keeps the invariant. -/
theorem inv_pktPut {s : State} (h : Inv s) {i : Nat} (hi : i < s.cfg.maxFrame) (b : Byte) :
    Inv (pktPut i b s) :=
  ⟨h.legal, h.fifo,
    ⟨h.storage.1, h.storage.2.1, Memory.wf_write h.storage.2.2.1 i b,
      Memory.below_write h.storage.2.2.2 hi b⟩,
    h.rsm, h.timers, h.status⟩

/-- The reassembler back in Seeking keeps the invariant. -/
theorem inv_rsmClear {s : State} (h : Inv s) : Inv (rsmClear s) :=
  ⟨h.legal, h.fifo, h.storage, by simp [RsmGood], h.timers, h.status⟩

/-- An emptied FIFO keeps the invariant. -/
theorem inv_fifoClear {s : State} (h : Inv s) : Inv (fifoClear s) :=
  ⟨h.legal, fifoGood_clear h.legal, h.storage, h.rsm, h.timers, h.status⟩

end Sys2Proof.Machine
end

