-- ==== Sys2Proof/Laws/PerInstr.lean ====
section
/-! SUPPORT. The encoded CMD word of every command selects that command's row of the opcode map
(30_encoding.md R66, R68): its opcode is the row's and its must-be-0 bits are 0. One lemma per
constructor of `Instr`. -/

namespace Sys2Proof.Laws.SelectsRow

/-- `(CMD & mask) == match` for the command's own row. -/
def Statement (i : Instr) : Prop := i.opcode.selects (encode i).1 = true

theorem fifoPush (b : Byte) : Statement (.fifoPush b) := by
  simp [Statement, encode, selects_cmdWord, Instr.opcode, Instr.aOperand, Instr.immOperand,
    Opcode.format, reservedA, reservedImm]

theorem fifoPop : Statement (.fifoPop) := by
  simp [Statement, encode, selects_cmdWord, Instr.opcode, Instr.aOperand, Instr.immOperand,
    Opcode.format, reservedA, reservedImm]

theorem fifoPeek (k : Half) : Statement (.fifoPeek k) := by
  simp [Statement, encode, selects_cmdWord, Instr.opcode, Instr.aOperand, Instr.immOperand,
    Opcode.format, reservedA, reservedImm]

theorem fifoAvail : Statement (.fifoAvail) := by
  simp [Statement, encode, selects_cmdWord, Instr.opcode, Instr.aOperand, Instr.immOperand,
    Opcode.format, reservedA, reservedImm]

theorem fifoReset : Statement (.fifoReset) := by
  simp [Statement, encode, selects_cmdWord, Instr.opcode, Instr.aOperand, Instr.immOperand,
    Opcode.format, reservedA, reservedImm]

theorem tmrInit (t : Byte) (d : Word) : Statement (.tmrInit t d) := by
  simp [Statement, encode, selects_cmdWord, Instr.opcode, Instr.aOperand, Instr.immOperand,
    Opcode.format, reservedA, reservedImm]

theorem tmrElapsed (t : Byte) : Statement (.tmrElapsed t) := by
  simp [Statement, encode, selects_cmdWord, Instr.opcode, Instr.aOperand, Instr.immOperand,
    Opcode.format, reservedA, reservedImm]

theorem tmrTryfire (t : Byte) : Statement (.tmrTryfire t) := by
  simp [Statement, encode, selects_cmdWord, Instr.opcode, Instr.aOperand, Instr.immOperand,
    Opcode.format, reservedA, reservedImm]

theorem tmrRestart (t : Byte) : Statement (.tmrRestart t) := by
  simp [Statement, encode, selects_cmdWord, Instr.opcode, Instr.aOperand, Instr.immOperand,
    Opcode.format, reservedA, reservedImm]

theorem pktRd (k : Half) : Statement (.pktRd k) := by
  simp [Statement, encode, selects_cmdWord, Instr.opcode, Instr.aOperand, Instr.immOperand,
    Opcode.format, reservedA, reservedImm]

theorem pktWr (k : Half) (b : Byte) : Statement (.pktWr k b) := by
  simp [Statement, encode, selects_cmdWord, Instr.opcode, Instr.aOperand, Instr.immOperand,
    Opcode.format, reservedA, reservedImm]

theorem pktGetf (f : Byte) : Statement (.pktGetf f) := by
  simp [Statement, encode, selects_cmdWord, Instr.opcode, Instr.aOperand, Instr.immOperand,
    Opcode.format, reservedA, reservedImm]

theorem pktSetf (f : Byte) (d : Word) : Statement (.pktSetf f d) := by
  simp [Statement, encode, selects_cmdWord, Instr.opcode, Instr.aOperand, Instr.immOperand,
    Opcode.format, reservedA, reservedImm]

theorem hdrCk : Statement (.hdrCk) := by
  simp [Statement, encode, selects_cmdWord, Instr.opcode, Instr.aOperand, Instr.immOperand,
    Opcode.format, reservedA, reservedImm]

theorem payCk : Statement (.payCk) := by
  simp [Statement, encode, selects_cmdWord, Instr.opcode, Instr.aOperand, Instr.immOperand,
    Opcode.format, reservedA, reservedImm]

theorem pktValidate : Statement (.pktValidate) := by
  simp [Statement, encode, selects_cmdWord, Instr.opcode, Instr.aOperand, Instr.immOperand,
    Opcode.format, reservedA, reservedImm]

theorem pktFinalize : Statement (.pktFinalize) := by
  simp [Statement, encode, selects_cmdWord, Instr.opcode, Instr.aOperand, Instr.immOperand,
    Opcode.format, reservedA, reservedImm]

theorem rsmStep : Statement (.rsmStep) := by
  simp [Statement, encode, selects_cmdWord, Instr.opcode, Instr.aOperand, Instr.immOperand,
    Opcode.format, reservedA, reservedImm]

theorem rsmPoll : Statement (.rsmPoll) := by
  simp [Statement, encode, selects_cmdWord, Instr.opcode, Instr.aOperand, Instr.immOperand,
    Opcode.format, reservedA, reservedImm]

theorem rsmReset : Statement (.rsmReset) := by
  simp [Statement, encode, selects_cmdWord, Instr.opcode, Instr.aOperand, Instr.immOperand,
    Opcode.format, reservedA, reservedImm]

theorem rxPush (b : Byte) : Statement (.rxPush b) := by
  simp [Statement, encode, selects_cmdWord, Instr.opcode, Instr.aOperand, Instr.immOperand,
    Opcode.format, reservedA, reservedImm]

theorem linkCheck : Statement (.linkCheck) := by
  simp [Statement, encode, selects_cmdWord, Instr.opcode, Instr.aOperand, Instr.immOperand,
    Opcode.format, reservedA, reservedImm]

theorem linkSetest : Statement (.linkSetest) := by
  simp [Statement, encode, selects_cmdWord, Instr.opcode, Instr.aOperand, Instr.immOperand,
    Opcode.format, reservedA, reservedImm]

theorem tick : Statement (.tick) := by
  simp [Statement, encode, selects_cmdWord, Instr.opcode, Instr.aOperand, Instr.immOperand,
    Opcode.format, reservedA, reservedImm]

theorem csrRd (c : Byte) : Statement (.csrRd c) := by
  simp [Statement, encode, selects_cmdWord, Instr.opcode, Instr.aOperand, Instr.immOperand,
    Opcode.format, reservedA, reservedImm]

theorem csrWr (c : Byte) (d : Word) : Statement (.csrWr c d) := by
  simp [Statement, encode, selects_cmdWord, Instr.opcode, Instr.aOperand, Instr.immOperand,
    Opcode.format, reservedA, reservedImm]

end Sys2Proof.Laws.SelectsRow
end

