-- ==== Sys2Proof/Laws/Reassembler.lean ====
section
/-! SUPPORT. Everything one reassembler transition can do, said once over the queue of held bytes
(44_reassembler.md R115 to R120). -/

namespace Sys2Proof.Machine

/-- The discard: the queue loses its head, and `JUNK_CNT` counts it. -/
theorem junkOne_spec {s : State} (hc : s.cfg.legal = true) (hg : FifoGood s) (h : s.fifoCount ≠ 0) :
    ∃ t, junkOne s = .ok t ∧ fifoHeld s = fifoByte s 0 :: fifoHeld t ∧ FifoGood t ∧
      t = { s with
        fifoRd := t.fifoRd
        fifoCount := s.fifoCount - 1
        junkCnt := s.junkCnt + 1 } := by
  obtain ⟨u, hu, hh, hgu, hfu⟩ := fifoDrop_spec hc hg h
  refine ⟨{ u with junkCnt := u.junkCnt + 1 }, by simp [junkOne, hu], ?_, hgu, ?_⟩
  · rw [hh]; rfl
  · rw [hfu]

/-- Seeking on an empty FIFO waits. -/
theorem rsmSeek_empty {s : State} (h : s.fifoCount = 0) : rsmSeek s = .ok (.notReady, s) := by
  rw [rsmSeek, if_pos h]

/-- Seeking at a tag moves to HeaderPending. -/
theorem rsmSeek_tag {s : State} (h : s.fifoCount ≠ 0) (hb : fifoByte s 0 = s.cfgRev) :
    rsmSeek s = .ok (.cont, { s with rsmState := .headerPending }) := by
  have h0 : 0 < s.fifoCount.toNat := by
    rcases Nat.eq_zero_or_pos s.fifoCount.toNat with h0 | h0
    · exact absurd (BitVec.eq_of_toNat_eq (by simpa using h0)) h
    · exact h0
  rw [rsmSeek, if_neg h]
  simp [fifoPeek, h0, hb]

/-- Seeking at any other byte discards it. -/
theorem rsmSeek_junk {s t : State} (h : s.fifoCount ≠ 0) (hb : fifoByte s 0 ≠ s.cfgRev)
    (ht : junkOne s = .ok t) : rsmSeek s = .ok (.cont, t) := by
  have h0 : 0 < s.fifoCount.toNat := by
    rcases Nat.eq_zero_or_pos s.fifoCount.toNat with h0 | h0
    · exact absurd (BitVec.eq_of_toNat_eq (by simpa using h0)) h
    · exact h0
  rw [rsmSeek, if_neg h]
  simp [fifoPeek, h0, hb, ht]

/-- HeaderPending with fewer than 15 bytes waits. -/
theorem rsmHeader_wait {s : State} (h : s.fifoCount.toNat < 15) :
    rsmHeader s = .ok (.notReady, s) := by
  rw [rsmHeader, if_pos h]

/-- HeaderPending at an acceptable header latches its length. -/
theorem rsmHeader_accept {s : State} (h : 15 ≤ s.fifoCount.toNat)
    (ha : headerAccepted s.cfg s.cfgRev ((fifoHeld s).take 15) = true) :
    rsmHeader s = .ok (.cont, { s with
      rsmLen := frameLength s.cfg ((fifoHeld s).take 15)
      rsmState := .payloadPending }) := by
  rw [rsmHeader, if_neg (show ¬ s.fifoCount.toNat < hdrSize from Nat.not_lt.mpr h),
    fifoPeekMany_held h]
  simp [ha]

/-- HeaderPending at any other header discards one byte and goes back to Seeking. -/
theorem rsmHeader_reject {s t : State} (h : 15 ≤ s.fifoCount.toNat)
    (ha : headerAccepted s.cfg s.cfgRev ((fifoHeld s).take 15) = false)
    (ht : junkOne s = .ok t) :
    rsmHeader s = .ok (.cont, rsmClear { t with hdrfailCnt := t.hdrfailCnt + 1 }) := by
  rw [rsmHeader, if_neg (show ¬ s.fifoCount.toNat < hdrSize from Nat.not_lt.mpr h),
    fifoPeekMany_held h]
  simp [ha, ht]

/-- PayloadPending with fewer bytes than the latched length waits. -/
theorem rsmPayload_wait {s : State} (h : s.fifoCount.toNat < s.rsmLen.toNat) :
    rsmPayload s = .ok (.notReady, s) := by
  rw [rsmPayload, if_pos h]

/-- PayloadPending at a frame whose payload check fails discards one byte and goes back to Seeking. -/
theorem rsmPayload_reject {s t : State} (h : s.rsmLen.toNat ≤ s.fifoCount.toNat)
    (hl : lengthLegal s.cfg s.rsmLen = true)
    (hp : payloadPasses s.cfg s.rsmLen.toNat ((fifoHeld s).take s.rsmLen.toNat) = false)
    (ht : junkOne s = .ok t) :
    rsmPayload s = .ok (.cont, rsmClear { t with payfailCnt := t.payfailCnt + 1 }) := by
  rw [rsmPayload, if_neg (Nat.not_lt.mpr h), fifoPeekMany_held h]
  simp [hl, hp, ht]

/-- PayloadPending at a frame whose payload check passes delivers it: the queue loses the frame, PKT
gains it, and the reassembler is back in Seeking. -/
theorem rsmPayload_deliver {s : State} (hc : s.cfg.legal = true) (hg : FifoGood s)
    (h : s.rsmLen.toNat ≤ s.fifoCount.toNat) (hl : lengthLegal s.cfg s.rsmLen = true)
    (hp : payloadPasses s.cfg s.rsmLen.toNat ((fifoHeld s).take s.rsmLen.toNat) = true) :
    ∃ t, rsmPayload s = .ok (.ready s.rsmLen, t) ∧
      fifoHeld t = (fifoHeld s).drop s.rsmLen.toNat ∧ FifoGood t ∧
      t.fifoCount.toNat = s.fifoCount.toNat - s.rsmLen.toNat ∧
      t = { s with
        fifoRd := t.fifoRd
        fifoCount := t.fifoCount
        pkt := (pktPutMany 0 ((fifoHeld s).take s.rsmLen.toNat) s).pkt
        pktResp := false
        frameCnt := s.frameCnt + 1
        rsmState := .seeking
        rsmLen := 0 } := by
  have hf := pktPutMany_frame ((fifoHeld s).take s.rsmLen.toNat) 0 s
  have hu : ({ pktPutMany 0 ((fifoHeld s).take s.rsmLen.toNat) s with pktResp := false } : State) =
      { s with
        pkt := (pktPutMany 0 ((fifoHeld s).take s.rsmLen.toNat) s).pkt
        pktResp := false } := by rw [hf]
  obtain ⟨t, ht, hh, hgt, hct, hft⟩ := fifoDropMany_spec (n := s.rsmLen.toNat)
    (s := { s with
      pkt := (pktPutMany 0 ((fifoHeld s).take s.rsmLen.toNat) s).pkt
      pktResp := false }) hc hg h
  refine ⟨rsmClear { t with frameCnt := t.frameCnt + 1 }, ?_, ?_, hgt, hct, ?_⟩
  · rw [rsmPayload, if_neg (Nat.not_lt.mpr h), fifoPeekMany_held h]
    simp only [hl, Bool.true_eq_false, if_false, hp, if_true, rsmDeliver, hu, ht]
  · have : fifoHeld (rsmClear { t with frameCnt := t.frameCnt + 1 }) = fifoHeld t :=
      fifoHeld_congr rfl rfl rfl rfl
    rw [this, hh]
    rfl
  · rw [hft]
    rfl

end Sys2Proof.Machine
end

