-- ==== Sys2Proof/Tests/Slice0.lean ====
section
/-! SUPPORT. Tests: the checks of WellFormed, words written out from the encoding tables of
30_encoding.md, single steps whose results stand in 95_test_vectors.md (the vector is named at each),
and for every statement with hypotheses a state and operands that meet them. -/

namespace Sys2Proof.Machine.Tests

/-! ### The checks of WellFormed refuse ill-formed terms (00_scope.md R8, 30_encoding.md R73) -/

theorem test_reference_legal : Config.reference.legal = true := by decide

theorem test_frame_below_minimum_refused :
    Config.legal { Config.reference with maxFrame := 15 } = false := by decide

theorem test_frame_above_fifo_refused :
    Config.legal { Config.reference with maxFrame := 513 } = false := by decide

theorem test_fifo_above_65535_refused :
    Config.legal { Config.reference with fifoCap := 65536 } = false := by decide

theorem test_no_timer_refused : Config.legal { Config.reference with nTimers := 0 } = false := by
  decide

theorem test_17_timers_refused : Config.legal { Config.reference with nTimers := 17 } = false := by
  decide

theorem test_pktLoad_past_16_bits_refused : (Pseudo.pktLoad 0xFFFF [1, 2]).wf = false := by decide

theorem test_pktLoad_of_nothing_refused : (Pseudo.pktLoad 0 []).wf = false := by decide

theorem test_drain_of_nothing_refused : (Pseudo.drain []).wf = false := by decide

/-! ### Words written out from 30_encoding.md R66 and R68: OP, then A, then IMM -/

theorem test_decode_fifoPush : decode 0x100000AA 0 = .ok (.fifoPush 0xAA) := by decide
theorem test_decode_fifoPop : decode 0x11000000 0 = .ok .fifoPop := by decide
theorem test_decode_fifoPeek : decode 0x1200000E 0 = .ok (.fifoPeek 14) := by decide
theorem test_decode_fifoAvail : decode 0x13000000 0 = .ok .fifoAvail := by decide
theorem test_decode_fifoReset : decode 0x14000000 0 = .ok .fifoReset := by decide
theorem test_decode_tmrInit : decode 0x20010000 0x64 = .ok (.tmrInit 1 100) := by decide
theorem test_decode_tmrElapsed : decode 0x21020000 0 = .ok (.tmrElapsed 2) := by decide
theorem test_decode_tmrTryfire : decode 0x22FF0000 0 = .ok (.tmrTryfire 255) := by decide
theorem test_decode_tmrRestart : decode 0x23000000 0 = .ok (.tmrRestart 0) := by decide
theorem test_decode_pktRd : decode 0x300000FF 0 = .ok (.pktRd 255) := by decide
theorem test_decode_pktWr : decode 0x3110000C 0 = .ok (.pktWr 12 0x10) := by decide
theorem test_decode_pktGetf : decode 0x32040000 0 = .ok (.pktGetf 4) := by decide
theorem test_decode_pktSetf : decode 0x33050000 0x10 = .ok (.pktSetf 5 16) := by decide
theorem test_decode_hdrCk : decode 0x34000000 0 = .ok .hdrCk := by decide
theorem test_decode_payCk : decode 0x35000000 0 = .ok .payCk := by decide
theorem test_decode_pktValidate : decode 0x36000000 0 = .ok .pktValidate := by decide
theorem test_decode_pktFinalize : decode 0x37000000 0 = .ok .pktFinalize := by decide
theorem test_decode_rsmStep : decode 0x40000000 0 = .ok .rsmStep := by decide
theorem test_decode_rsmPoll : decode 0x41000000 0 = .ok .rsmPoll := by decide
theorem test_decode_rsmReset : decode 0x42000000 0 = .ok .rsmReset := by decide
theorem test_decode_rxPush : decode 0x50000003 0 = .ok (.rxPush 3) := by decide
theorem test_decode_linkCheck : decode 0x51000000 0 = .ok .linkCheck := by decide
theorem test_decode_linkSetest : decode 0x52000000 0 = .ok .linkSetest := by decide
theorem test_decode_tick : decode 0x53000000 0 = .ok .tick := by decide
theorem test_decode_csrRd : decode 0x60030000 0 = .ok (.csrRd 3) := by decide
theorem test_decode_csrWr : decode 0x61090000 0x44332211 = .ok (.csrWr 9 0x44332211) := by decide

/-- 95_test_vectors.md E-1, E-3, E-7: an unassigned OP is refused by that name. -/
theorem test_decode_unknown :
    [0x00000000, 0x15000000, 0xFF000000].map (decode · 0) =
      [.error (.unknownOpcode 0x00), .error (.unknownOpcode 0x15), .error (.unknownOpcode 0xFF)] := by
  decide

/-- 95_test_vectors.md E-2, E-4, E-5, E-6, E-8: a non-zero must-be-0 field is refused by that name. -/
theorem test_decode_reserved :
    [0x11000001, 0x10000100, 0x12010000, 0x20000001, 0x60000001].map (decode · 0) =
      [.error (.reservedFieldNonZero .fifoPop), .error (.reservedFieldNonZero .fifoPush),
       .error (.reservedFieldNonZero .fifoPeek), .error (.reservedFieldNonZero .tmrInit),
       .error (.reservedFieldNonZero .csrRd)] := by decide

theorem test_tableWord : decodeTableWord 32 0x31AB000F = some (.pktWr 15 0xAB) := by decide

theorem test_tableWord_data : decodeTableWord 64 0x6420010000 = some (.tmrInit 1 100) := by decide

/-! ### Small states -/

/-- The storage that holds `l` from slot `i` on. -/
def stored (i : Nat) (l : List Byte) : Memory := (pktPutMany i l State.reset).pkt

/-- A reset block whose FIFO holds `l`, head in slot 0. -/
def holding (c : Config) (l : List Byte) : State :=
  { State.resetOf c with
    fifoMem := stored 0 l
    fifoWr := BitVec.ofNat 16 (l.length % c.fifoCap)
    fifoCount := BitVec.ofNat 16 l.length }

/-- A reset block of the reference configuration with `F` in its packet buffer. -/
def withPacket (F : List Byte) : State := { State.reset with pkt := stored 0 F }

/-- A reset block of the reference configuration whose timer 1 is `tm`, at NOW. -/
def withTimer (tm : Timer) (now : Word) : State :=
  { State.reset with timers := State.reset.timers.set 1 tm, now := now }

/-- Section 2.1's configuration: `P_FIFO_CAP = 16`, `P_MAX_FRAME = 16`. -/
def cfg16 : Config := { Config.reference with fifoCap := 16, maxFrame := 16 }

/-- The reference frame V-R1 (95_test_vectors.md W2). -/
def vR1 : List Byte :=
  [0x03, 0x01, 0x02, 0x03, 0x04, 0x05, 0x06, 0x10, 0x5F, 0x72, 0x70, 0x63, 0x16, 0x00, 0xE2,
   0x00, 0x00, 0x11, 0x22, 0x33, 0x44, 0xAA]

/-- The minimum frame V-M (vector K-4). -/
def vM : List Byte :=
  [0x03, 0x01, 0x02, 0x03, 0x04, 0x05, 0x06, 0x10, 0x5F, 0x72, 0x70, 0x63, 0x10, 0x00, 0xDC, 0x00]

/-- STATUS and RESULT after a command, where it completes. -/
def response (o : Host.Outcome State Fault Refusal) : Option (Nat × Nat) :=
  match o with
  | .next t => some (t.status.toNat, t.result.toNat)
  | .fault _ => none
  | .refused _ => none

/-- A part of the state after a command, where it completes. -/
def after {α : Type} (o : Host.Outcome State Fault Refusal) (f : State → α) : Option α :=
  match o with
  | .next t => some (f t)
  | .fault _ => none
  | .refused _ => none

/-! ### Single steps: expected results from 95_test_vectors.md -/

/-- The FIFO of vector F-1, full. -/
def full16 : State :=
  holding cfg16 [0, 1, 2, 3, 4, 5, 6, 7, 8, 9, 10, 11, 12, 13, 14, 15]

/-- F-2. -/
theorem test_fifoPush_overflow :
    response (exec (.fifoPush 0xAA) full16) = some (0x02, 16) ∧
      after (exec (.fifoPush 0xAA) full16) (·.ovfCnt) = some 1 := by decide
/-- F-7: the write wraps. -/
theorem test_fifoPush_wraps :
    after (exec (.fifoPush 0x99) { full16 with fifoRd := 1, fifoCount := 15 })
      (fun t => (t.fifoWr, fifoByte t 15)) = some (1, 0x99) := by decide
/-- F-6, F-11. -/
theorem test_fifoPop :
    response (exec .fifoPop (holding cfg16 [0x41, 0x42])) = some (0x00, 0x41) ∧
      after (exec .fifoPop full16) (·.fifoRd) = some 1 := by decide
/-- F-9. -/
theorem test_fifoPop_empty : response (exec .fifoPop State.reset) = some (0x01, 0) := by decide
/-- F-4, F-5. -/
theorem test_fifoPeek :
    response (exec (.fifoPeek 15) full16) = some (0x00, 0x0F) ∧
      response (exec (.fifoPeek 16) full16) = some (0x01, 0) := by decide
/-- F-3. -/
theorem test_fifoAvail : response (exec .fifoAvail full16) = some (0x00, 16) := by decide
/-- F-8. -/
theorem test_fifoReset :
    after (exec .fifoReset { full16 with ovfCnt := 1 }) (fun t => (t.fifoCount, t.ovfCnt)) =
      some (0, 1) := by decide
/-- T-1. -/
theorem test_tmrInit :
    after (exec (.tmrInit 1 100) { State.reset with now := 1000 }) (timerAt · 1) =
      some { last := 1000, intv := 100 } := by decide
/-- T-2, and W1's backward clock. -/
theorem test_tmrElapsed :
    response (exec (.tmrElapsed 1) (withTimer ⟨1000, 100⟩ 1060)) = some (0x00, 60) ∧
      response (exec (.tmrElapsed 1) (withTimer ⟨5000, 100⟩ 4000)) = some (0x00, 0) := by decide
/-- T-3: catch-up; T-4: snap. -/
theorem test_tmrTryfire :
    after (exec (.tmrTryfire 1) (withTimer ⟨100, 100⟩ 260))
        (fun t => (t.status, t.result, (timerAt t 1).last)) = some (0x06, 60, 200) ∧
      after (exec (.tmrTryfire 1) (withTimer ⟨0, 100⟩ 260))
        (fun t => (t.status, t.result, (timerAt t 1).last)) = some (0x06, 160, 260) := by decide
/-- T-7: the clock wrapped; T-11: GT at an interval of 0. -/
theorem test_tmrTryfire_wrap :
    after (exec (.tmrTryfire 1) (withTimer ⟨0xFFFFFF00, 0x200⟩ 0x100))
        (fun t => (t.status, t.result, (timerAt t 1).last)) = some (0x07, 0, 0x100) ∧
      response (exec (.tmrTryfire 1) { withTimer ⟨10, 0⟩ 10 with
        cfg := { Config.reference with tmrCmp := .gt } }) = some (0x07, 0) := by decide
/-- T-18. -/
theorem test_tmrRestart :
    after (exec (.tmrRestart 0) { State.reset with now := 5000 }) (timerAt · 0) =
      some { last := 5000, intv := 1000 } := by decide
/-- P-1, P-2. -/
theorem test_pktRd :
    response (exec (.pktRd 255) State.reset) = some (0x00, 0) ∧
      response (exec (.pktRd 256) State.reset) = some (0xE2, 0) := by decide
/-- P-15. -/
theorem test_pktRd_method : response (exec (.pktRd 7) (withPacket vR1)) = some (0x00, 0x10) := by
  decide
/-- P-3. -/
theorem test_pktWr_offset :
    response (exec (.pktWr 256 0xAA) State.reset) = some (0xE2, 0) := by decide
/-- P2, step 6. -/
theorem test_pktWr :
    after (exec (.pktWr 15 0xAB) State.reset) (fun t => (pktByte t 15, pktByte t 14)) =
      some (0xAB, 0) := by decide
/-- P-16, P-17, P-18. -/
theorem test_pktGetf :
    [4, 5, 7].map (fun f => response (exec (.pktGetf f) (withPacket vR1))) =
      [some (0x00, 0x6370725F), some (0x00, 0x16), some (0x00, 0xAA)] := by decide
/-- P-5, P-7. -/
theorem test_pktGetf_errors :
    [7, 9].map (fun f => response (exec (.pktGetf f) State.reset)) =
      [some (0xE3, 0), some (0xE1, 0)] := by decide
/-- P-12. -/
theorem test_pktSetf :
    after (exec (.pktSetf 5 16) State.reset) (fun t => (pktByte t 12, pktByte t 13)) =
      some (0x10, 0x00) := by decide
/-- P-6, P-8. -/
theorem test_pktSetf_errors :
    [7, 255].map (fun f => response (exec (.pktSetf f 5) State.reset)) =
      [some (0xE3, 0), some (0xE1, 0)] := by decide
/-- K-1, K-4. -/
theorem test_hdrCk :
    response (exec .hdrCk (withPacket vR1)) = some (0x00, 0x1E2) ∧
      response (exec .hdrCk (withPacket vM)) = some (0x00, 0x1DC) := by decide
/-- K-2: XOR8. -/
theorem test_hdrCk_xor :
    response (exec .hdrCk { withPacket (vR1.set 14 0x3C) with
      cfg := { Config.reference with ckAlg := .xor8 } }) = some (0x00, 0x13C) := by decide
/-- K-1, K-4, K-5. -/
theorem test_payCk :
    [withPacket vR1, withPacket vM, State.reset].map (fun s => response (exec .payCk s)) =
      [some (0x00, 0x1AA), some (0x00, 0x100), some (0xE3, 0)] := by decide
/-- K-3: BE. -/
theorem test_payCk_be :
    response (exec .payCk { withPacket ((vR1.set 12 0x00).set 13 0x16) with
      cfg := { Config.reference with wireOrder := .be } }) = some (0x00, 0x1AA) := by decide
/-- P-19, P-20, P-9. -/
theorem test_pktValidate :
    [withPacket vR1, withPacket (vR1.set 20 0x45), State.reset].map
        (fun s => response (exec .pktValidate s)) =
      [some (0x10, 22), some (0x14, 22), some (0x11, 0)] := by decide
/-- P-10. -/
theorem test_pktValidate_length :
    response (exec .pktValidate { State.reset with cfgRev := 0 }) = some (0x13, 0) := by decide
/-- P2, step 8. -/
theorem test_pktFinalize :
    after (exec .pktFinalize { withPacket [0, 0, 0, 0, 0, 0, 0, 0x20, 0x5F, 0x72, 0x70, 0x63, 0x12, 0, 0,
        0xAB, 0xCD] with devMac := 0x665544332211 }) (pktBytes · 0 18) =
      some [0x03, 0x11, 0x22, 0x33, 0x44, 0x55, 0x66, 0x20, 0x5F, 0x72, 0x70, 0x63, 0x12, 0x00, 0x3E,
        0xAB, 0xCD, 0x78] := by decide
/-- P-11. -/
theorem test_pktFinalize_length : response (exec .pktFinalize State.reset) = some (0xE3, 0) := by
  decide
/-- V-R10. -/
theorem test_rsmStep_junk :
    after (exec .rsmStep (holding Config.reference [0x07]))
      (fun t => (t.status, t.result, t.fifoCount, t.junkCnt)) = some (0x05, 0, 0, 1) := by decide
/-- V-R1, the third step. -/
theorem test_rsmStep_deliver :
    after (exec .rsmStep { holding Config.reference vR1 with
        rsmState := .payloadPending, rsmLen := 22 })
      (fun t => (t.status, t.result, t.fifoCount, decide (pktBytes t 0 22 = vR1))) =
      some (0x04, 22, 0, true) := by decide
/-- V-R3. -/
theorem test_rsmPoll :
    after (exec .rsmPoll (holding Config.reference (0x03 :: 0x55 :: vR1)))
      (fun t => (t.status, t.result, t.junkCnt, t.hdrfailCnt, t.frameCnt, t.fifoCount)) =
      some (0x04, 22, 2, 1, 1, 0) := by decide
/-- V-R4, the first poll. -/
theorem test_rsmPoll_waits :
    after (exec .rsmPoll (holding Config.reference (vR1.take 10)))
      (fun t => (t.status, t.result, t.junkCnt, t.fifoCount)) = some (0x03, 1, 0, 10) := by decide
/-- V-R11. -/
theorem test_rsmReset :
    after (exec .rsmReset { holding Config.reference (vR1.take 20) with
        rsmState := .payloadPending, rsmLen := 22 })
      (fun t => (t.rsmState, t.rsmLen, t.fifoCount)) = some (.seeking, 0, 20) := by decide
/-- L-1. -/
theorem test_rxPush :
    after (exec (.rxPush 3) { State.reset with now := 700 })
      (fun t => (t.status, t.result, (timerAt t 0).last)) = some (0x00, 1, 700) := by decide
/-- L-2. -/
theorem test_rxPush_overflow :
    after (exec (.rxPush 0xEE) { full16 with now := 9 })
      (fun t => (t.status, t.result, (timerAt t 0).last, t.ovfCnt)) = some (0x02, 16, 9, 1) := by
  decide
/-- L-3. -/
theorem test_linkCheck :
    after (exec .linkCheck { holding Config.reference [1, 2, 3, 4, 5] with
        now := 1000, linkEst := true })
      (fun t => (t.status, t.result, t.fifoCount, t.linkEst, t.timeoutCnt, (timerAt t 0).last)) =
      some (0x06, 0, 0, false, 1, 1000) := by decide
/-- L-4. -/
theorem test_linkCheck_idle :
    response (exec .linkCheck { State.reset with
      now := 1200, timers := State.reset.timers.set 0 ⟨1000, 1000⟩ }) = some (0x07, 0) := by decide
/-- L-5. -/
theorem test_linkSetest :
    after (exec .linkSetest State.reset) statusWord = some 0x0C := by decide
/-- L-6. -/
theorem test_tick_fires :
    after (exec .tick { State.reset with now := 1000 })
      (fun t => (t.status, t.result, t.timeoutCnt, (timerAt t 0).last)) =
      some (0x03, 0x10000, 1, 1000) := by decide
/-- P1, step 3. -/
theorem test_tick_delivers :
    response (exec .tick { holding Config.reference ([0x07, 0xFF, 0x00] ++ vR1) with now := 20 }) =
      some (0x04, 0x16) := by decide
/-- S-1 to S-7. -/
theorem test_csrRd :
    [0x00, 0x30, 0x0E, 0x0C, 0x0D, 0x0F, 0x24].map
        (fun c => response (exec (.csrRd c) State.reset)) =
      [some (0x00, 0x03), some (0x00, 1000), some (0x00, 4), some (0x00, 512), some (0x00, 256),
       some (0xE1, 0), some (0xE1, 0)] := by decide
/-- F-1, F-10, P-21: CSR STATUS. -/
theorem test_csrRd_status :
    [full16, State.reset, { State.reset with pktResp := true }].map
        (fun s => response (exec (.csrRd 0x01) s)) =
      [some (0x00, 0x10), some (0x00, 0x08), some (0x00, 0x28)] := by decide
/-- S-8 to S-12. -/
theorem test_csrWr_errors :
    [0x01, 0x20, 0x24, 0xFF, 0x0F].map (fun c => response (exec (.csrWr c 5) State.reset)) =
      [some (0xE4, 0), some (0xE4, 0), some (0xE1, 0), some (0xE1, 0), some (0xE1, 0)] := by decide
/-- S-13, S-14. -/
theorem test_csrWr :
    after (exec (.csrWr 0x00 0x1FF) State.reset) (·.cfgRev) = some 0xFF ∧
      after (exec (.csrWr 0x0A 0xFFFF6655) State.reset) (·.devMac) = some 0x665500000000 := by decide
/-- L-7: an RX-port step writes no response. -/
theorem test_rxPort_full :
    after (step { full16 with status := 0x05, result := 7, inputs := [.rx 1 0xEE] })
      (fun t => (t.status, t.result, t.ovfCnt)) = some (0x05, 7, 1) := by decide
/-- E-1: the step on an ILLEGAL word. -/
theorem test_step_illegal :
    response (step (State.reset.withFetchWord 32 0)) = some (0xE0, 0) := by decide
/-- S-1, through the command port. -/
theorem test_step_fetchWord :
    response (step (State.reset.withFetchWord 32 0x60000000)) = some (0x00, 3) := by decide
/-- R72's names, R73's `PKT_LOAD`. -/
theorem test_assemble :
    assemble "CSR_RD TMR_INTV[0]".toList = some [.csrRd 0x30] ∧
      assemble "PKT_LOAD 15, 0xAB, 205".toList = some [.pktWr 15 0xAB, .pktWr 16 0xCD] ∧
      assemble "FIFO_PUSH 256".toList = none := by decide

/-! ### Hypotheses that are met: for every statement with hypotheses, and for each of its clauses, a
state and operands -/

/-- A block whose next event is `e`. -/
def offered (e : PortEvent) : State := { State.reset with inputs := [e, .rx 9 0x07] }

/-- A block whose timer 1 is `tm`, at NOW, comparing with GT. -/
def withTimerGt (tm : Timer) (now : Word) : State :=
  { withTimer tm now with cfg := { Config.reference with tmrCmp := .gt } }

/-- `holding` with the reassembler in HeaderPending. -/
def atHeader (l : List Byte) : State :=
  { holding Config.reference l with rsmState := .headerPending }

/-- `holding` with the reassembler in PayloadPending for V-R1's length. -/
def atPayload (l : List Byte) : State :=
  { holding Config.reference l with rsmState := .payloadPending, rsmLen := 22 }

/-- V-R1's first ten bytes held from slot 500 on, so that they wrap round the storage. -/
def wrapped : State :=
  { State.reset with
    fifoMem := (pktPutMany 0 (vR1.drop 12 |>.take 2) { State.reset with pkt := stored 500 (vR1.take 12) }).pkt
    fifoRd := 500
    fifoWr := 2
    fifoCount := 14 }

theorem inv_reset : Inv State.reset := (inv_iff _).mpr (by decide)
theorem inv_full16 : Inv full16 := (inv_iff _).mpr (by decide)

theorem witness_DecodedWordsAreTheEncoding :
    decode 0x20010000 0x64 = .ok (.tmrInit 1 0x64) ∧
      (Instr.tmrInit 1 0x64).opcode.format.readsData = true := by decide

theorem witness_IllegalIffSelectsNoRow :
    decode 0 0 = .error (.unknownOpcode 0) ∧ (offered (.host 5 0 0)).cfg.legal = true ∧
      (offered (.host 5 0 0)).inputs = .host 5 0 0 :: [.rx 9 0x07] := by decide

theorem witness_PseudoExpansions :
    (Pseudo.pktLoad 0xFFFE [1, 2]).wf = true ∧ ([1, 2] : List Byte)[1]? = some 2 := by decide

theorem witness_StepRunsDecodedCommand :
    (offered (.host 5 0x11000000 0)).cfg.legal = true ∧
      (offered (.host 5 0x11000000 0)).inputs = .host 5 0x11000000 0 :: [.rx 9 0x07] ∧
      decode 0x11000000 0 = .ok .fifoPop := by decide

theorem witness_IdleBlockHoldsItsState :
    State.reset.cfg.legal = true ∧ State.reset.inputs = [] := by decide

theorem witness_RefusedIffConfigurationIllegal :
    step { State.reset with cfg := { Config.reference with nTimers := 0 } } =
        .refused .illegalConfiguration ∧
      step State.reset = .next State.reset := ⟨rfl, rfl⟩

theorem witness_RxPortIsRxPushWithoutResponse :
    (offered (.rx 5 0x03)).cfg.legal = true ∧
      (offered (.rx 5 0x03)).inputs = .rx 5 0x03 :: [.rx 9 0x07] := by decide

theorem witness_ResetStepSetsEveryPieceOfState :
    (offered .reset).cfg.legal = true ∧ (offered .reset).inputs = .reset :: [.rx 9 0x07] ∧
      0 < (offered .reset).cfg.nTimers := by decide

theorem witness_ResetEstablishesInvariant :
    Config.reference.legal = true ∧ cfg16.legal = true := by decide

theorem witness_StepKeepsInvariant :
    ∃ t, Inv (offered (.host 5 0x20010000 0x64)) ∧
      step (offered (.host 5 0x20010000 0x64)) = .next t :=
  ⟨_, (inv_iff _).mpr (by decide), rfl⟩

theorem witness_StepNeverStops : Inv (offered (.rx 5 0x03)) := (inv_iff _).mpr (by decide)

theorem witness_EveryCommandKeepsFifoCursors :
    ∃ t, full16.cfg.legal = true ∧ FifoGood full16 ∧ exec .fifoPop full16 = .next t :=
  ⟨_, by decide, by decide, rfl⟩

theorem witness_CursorsAndFreeSlotsAreUnobservable :
    ∃ s', Inv wrapped ∧ Inv (holding Config.reference (vR1.take 14)) ∧
      SameView wrapped (holding Config.reference (vR1.take 14)) ∧
      wrapped.fifoRd ≠ (holding Config.reference (vR1.take 14)).fifoRd ∧
      exec .rsmPoll wrapped = .next s' :=
  ⟨_, (inv_iff _).mpr (by decide), (inv_iff _).mpr (by decide), by decide, by decide, rfl⟩

theorem witness_ErrorsArePrecise :
    ∃ t, exec (.tmrElapsed 4) State.reset = .next t ∧ 0xE0 ≤ t.status.toNat := ⟨_, rfl, by decide⟩

theorem witness_CommandsProduceOnlyTheirCodes :
    ∃ t, exec .pktValidate State.reset = .next t := ⟨_, rfl⟩

theorem witness_ReadOnlyCommandsRepeat :
    (Instr.csrRd 0xFF).opcode ∈ ([.fifoPeek, .fifoAvail, .pktRd, .pktGetf, .hdrCk, .payCk,
      .pktValidate, .tmrElapsed, .csrRd] : List Opcode) := by decide

theorem witness_OnlyTheNamedCommandsChangeState :
    ∃ t, exec (.csrRd 0) State.reset = .next t ∧
      (Instr.csrRd 0).opcode ≠ .csrWr ∧
      (Instr.csrRd 0).opcode ∉ ([.fifoPush, .fifoPop, .fifoReset, .rsmStep, .rsmPoll, .rsmReset,
        .rxPush, .linkCheck, .linkSetest, .tick, .pktWr, .pktSetf, .pktFinalize, .tmrInit,
        .tmrTryfire, .tmrRestart, .csrWr] : List Opcode) := ⟨_, rfl, by decide⟩

theorem witness_FifoPushAppendsOrDrops :
    Inv { full16 with fifoRd := 1, fifoCount := 15 } ∧ Inv full16 ∧
      full16.fifoCount.toNat = full16.cfg.fifoCap :=
  ⟨(inv_iff _).mpr (by decide), inv_full16, by decide⟩

theorem witness_FifoPopTakesTheOldest :
    Inv State.reset ∧ fifoHeld State.reset = [] ∧ Inv full16 ∧
      fifoHeld full16 = 0 :: [1, 2, 3, 4, 5, 6, 7, 8, 9, 10, 11, 12, 13, 14, 15] :=
  ⟨inv_reset, by decide, inv_full16, by decide⟩

theorem witness_FifoPeekAndAvailRead :
    (15 : Half).toNat < full16.fifoCount.toNat ∧ full16.fifoCount.toNat ≤ (16 : Half).toNat := by
  decide

theorem witness_TimerIndexOutOfRange :
    State.reset.cfg.nTimers ≤ (4 : Byte).toNat ∧
      (0x23 : Byte) ∈ ([0x20, 0x21, 0x22, 0x23] : List Byte) ∧ (1 : Half) ≠ 0 := by decide

theorem witness_TmrInitSetsOneTimer :
    TimersGood State.reset ∧ (3 : Byte).toNat < State.reset.cfg.nTimers := by decide

theorem witness_TmrRestartKeepsTheInterval :
    TimersGood State.reset ∧ (3 : Byte).toNat < State.reset.cfg.nTimers ∧
      State.reset.timers[(3 : Byte).toNat]? = some ⟨0, 0⟩ := by decide

theorem witness_TmrElapsedMeasures :
    (1 : Byte).toNat < State.reset.cfg.nTimers ∧
      (withTimer ⟨1000, 100⟩ 1000).timers[(1 : Byte).toNat]? = some ⟨1000, 100⟩ ∧
      (1000 : Word).toNat ≤ (withTimer ⟨1000, 100⟩ 1000).now.toNat ∧
      (withTimer ⟨1000, 100⟩ 999).now.toNat < (1000 : Word).toNat := by decide

/-- One NOW for each branch: 99 backward, 199 not yet, 200 and 300 catch up, 301 snap. -/
theorem witness_TmrTryfireBranches :
    (1 : Byte).toNat < State.reset.cfg.nTimers ∧
      (∀ now, (withTimer ⟨100, 100⟩ now).timers[(1 : Byte).toNat]? = some ⟨100, 100⟩) ∧
      (withTimer ⟨100, 100⟩ 99).now.toNat < 100 ∧ ¬ (100 ≤ (withTimer ⟨100, 100⟩ 199).now.toNat - 100) ∧
      100 ≤ (withTimer ⟨100, 100⟩ 200).now.toNat - 100 ∧
      (withTimer ⟨100, 100⟩ 300).now.toNat - 100 - 100 ≤ 100 ∧
      100 < (withTimer ⟨100, 100⟩ 301).now.toNat - 100 - 100 :=
  ⟨by decide, fun _ => rfl, by decide, by decide, by decide, by decide, by decide⟩

/-- The double fire of T-6 under GE: `over = intv`, then 0, then none. -/
theorem witness_TimerPolicyProperties_ge :
    ∃ u v w, exec (.tmrTryfire 1) (withTimer ⟨0, 100⟩ 200) = .next u ∧ u.status = 0x06 ∧
      u.result = 100 ∧ exec (.tmrTryfire 1) u = .next v ∧ v.status = 0x06 ∧
      exec (.tmrTryfire 1) v = .next w ∧ (1 : Byte).toNat < State.reset.cfg.nTimers ∧
      (withTimer ⟨0, 100⟩ 200).timers[(1 : Byte).toNat]? = some ⟨0, 100⟩ :=
  ⟨_, _, _, rfl, by decide, by decide, rfl, by decide, rfl, by decide, by decide⟩

theorem witness_TimerPolicyProperties_gt :
    ∃ u v w, exec (.tmrTryfire 1) (withTimerGt ⟨0, 100⟩ 200) = .next u ∧ u.status = 0x06 ∧
      exec (.tmrTryfire 1) u = .next v ∧ exec (.tmrTryfire 1) v = .next w ∧
      (withTimerGt ⟨0, 100⟩ 200).timers[(1 : Byte).toNat]? = some ⟨0, 100⟩ :=
  ⟨_, _, _, rfl, by decide, rfl, rfl, by decide⟩

/-- The clauses on a backward clock, on a diff past the interval, and on one equal to it. -/
theorem witness_TimerPolicyProperties_edges :
    (∃ u, exec (.tmrTryfire 1) (withTimer ⟨100, 100⟩ 99) = .next u) ∧
      (∃ u, exec (.tmrTryfire 1) (withTimer ⟨100, 100⟩ 201) = .next u) ∧
      (∃ u, exec (.tmrTryfire 1) (withTimer ⟨100, 100⟩ 200) = .next u) ∧
      99 < 100 ∧ 100 + 100 < 201 ∧ 100 + 100 = 200 :=
  ⟨⟨_, rfl⟩, ⟨_, rfl⟩, ⟨_, rfl⟩, by decide⟩

theorem witness_PktRdReadsOneByte :
    (255 : Half).toNat < State.reset.cfg.maxFrame ∧ State.reset.cfg.maxFrame ≤ (256 : Half).toNat := by
  decide

theorem witness_PktWrWritesOneByte :
    Memory.wf (withPacket vR1).pkt ∧ (255 : Half).toNat < (withPacket vR1).cfg.maxFrame ∧
      (withPacket vR1).cfg.maxFrame ≤ (256 : Half).toNat := by decide

/-- dl = 16 and dl = 15 stand on the two sides of the clauses of field 7. -/
theorem witness_PktGetfDecodesFields :
    (pktDlen (withPacket vM)).toNat = 16 ∧ (pktDlen (withPacket (vM.set 12 15))).toNat = 15 ∧
      16 ≤ (withPacket vM).cfg.maxFrame ∧ (withPacket vM).cfg.wireOrder = .le ∧
      { Config.reference with wireOrder := .be }.wireOrder = .be ∧ 9 ≤ (9 : Byte).toNat := by decide

theorem witness_PktSetfEncodesFields :
    Memory.wf (withPacket vM).pkt ∧ fieldOf 7 = some .pck ∧ pktLegal (withPacket vM) = true ∧
      pktLegal State.reset = false ∧ 9 ≤ (9 : Byte).toNat := by decide

theorem witness_SetfThenGetfReadsBack :
    ∃ t, Inv (withPacket vM) ∧ exec (.pktSetf 7 0x1FF) (withPacket vM) = .next t ∧ t.status = 0x00 :=
  ⟨_, (inv_iff _).mpr (by decide), rfl, by decide⟩

/-- dl = 16, 256, and dl = 15, 257. -/
theorem witness_PayCkReportsCheckAndMatch :
    (pktDlen (withPacket vM)).toNat = 16 ∧
      (pktDlen (withPacket ((vM.set 12 0).set 13 1))).toNat = 256 ∧
      (withPacket vM).cfg.maxFrame = 256 ∧ (pktDlen (withPacket (vM.set 12 15))).toNat = 15 ∧
      (pktDlen (withPacket ((vM.set 12 1).set 13 1))).toNat = 257 := by decide

theorem witness_PktFinalizeStampsAndChecks :
    Memory.wf (withPacket vM).pkt ∧ (pktDlen (withPacket vM)).toNat = 16 ∧
      (pktDlen (withPacket (vM.set 12 15))).toNat = 15 := by decide

theorem witness_FinalizedFrameValidates :
    ∃ t, Inv (withPacket vM) ∧ exec .pktFinalize (withPacket vM) = .next t ∧ t.status = 0x00 :=
  ⟨_, (inv_iff _).mpr (by decide), rfl, by decide⟩

theorem witness_SeekingStep :
    Inv State.reset ∧ State.reset.rsmState = .seeking ∧ fifoHeld State.reset = [] ∧
      Inv (holding Config.reference [0x03]) ∧
      fifoHeld (holding Config.reference [0x03]) = (holding Config.reference [0x03]).cfgRev :: [] ∧
      Inv (holding Config.reference [0x07]) ∧ fifoHeld (holding Config.reference [0x07]) = 0x07 :: [] ∧
      (0x07 : Byte) ≠ (holding Config.reference [0x07]).cfgRev :=
  ⟨inv_reset, rfl, by decide, (inv_iff _).mpr (by decide), by decide, (inv_iff _).mpr (by decide),
    by decide, by decide⟩

/-- 14 bytes wait, 15 bytes are accepted; a wrong header check is not. -/
theorem witness_HeaderPendingStep :
    Inv (atHeader (vR1.take 14)) ∧ (atHeader (vR1.take 14)).fifoCount.toNat < 15 ∧
      Inv (atHeader (vR1.take 15)) ∧ 15 ≤ (atHeader (vR1.take 15)).fifoCount.toNat ∧
      HeaderGood (atHeader (vR1.take 15)).cfg (atHeader (vR1.take 15)).cfgRev
        (fifoHeld (atHeader (vR1.take 15))) ∧
      Inv (atHeader (vR1.set 14 0)) ∧ 15 ≤ (atHeader (vR1.set 14 0)).fifoCount.toNat ∧
      ¬ HeaderGood (atHeader (vR1.set 14 0)).cfg (atHeader (vR1.set 14 0)).cfgRev
        (fifoHeld (atHeader (vR1.set 14 0))) :=
  ⟨(inv_iff _).mpr (by decide), by decide, (inv_iff _).mpr (by decide), by decide, by decide,
    (inv_iff _).mpr (by decide), by decide, by decide⟩

/-- 21 bytes wait, 22 bytes are delivered; a wrong payload byte is not. -/
theorem witness_PayloadPendingStep :
    Inv (atPayload (vR1.take 21)) ∧ (atPayload (vR1.take 21)).rsmState = .payloadPending ∧
      (atPayload (vR1.take 21)).fifoCount.toNat < (atPayload (vR1.take 21)).rsmLen.toNat ∧
      Inv (atPayload vR1) ∧ (atPayload vR1).rsmLen.toNat ≤ (atPayload vR1).fifoCount.toNat ∧
      payloadPasses Config.reference 22 (fifoHeld (atPayload vR1)) = true ∧
      Inv (atPayload (vR1.set 20 0x45)) ∧
      payloadPasses Config.reference 22 (fifoHeld (atPayload (vR1.set 20 0x45))) = false :=
  ⟨(inv_iff _).mpr (by decide), rfl, by decide, (inv_iff _).mpr (by decide), by decide, by decide,
    (inv_iff _).mpr (by decide), by decide⟩

theorem witness_PollIsTheLoopOfSteps :
    (∃ t, Inv (holding Config.reference [0x07]) ∧
      exec .rsmStep (holding Config.reference [0x07]) = .next t ∧ t.status = 0x05) ∧
    (∃ t, Inv State.reset ∧ exec .rsmStep State.reset = .next t ∧ t.status = 0x03) ∧
    (∃ t, Inv (atPayload vR1) ∧ exec .rsmStep (atPayload vR1) = .next t ∧ t.status = 0x04) :=
  ⟨⟨_, (inv_iff _).mpr (by decide), rfl, by decide⟩, ⟨_, inv_reset, rfl, by decide⟩,
    ⟨_, (inv_iff _).mpr (by decide), rfl, by decide⟩⟩

theorem witness_PollEndsWithinItsBound :
    Inv (holding Config.reference vR1) ∧
      3 * (holding Config.reference vR1).fifoCount.toNat + 3 ≤ 69 :=
  ⟨(inv_iff _).mpr (by decide), by decide⟩

/-- The stream of V-R3 with a byte behind it: 0x03 starts a window whose header fails, 0x55 differs
from the tag. -/
theorem witness_PollResynchronisesOnTheFrame :
    Inv (holding Config.reference ([0x03, 0x55] ++ vR1 ++ [0x07])) ∧
      (holding Config.reference ([0x03, 0x55] ++ vR1 ++ [0x07])).rsmState = .seeking ∧
      ValidFrame Config.reference 0x03 vR1 ∧
      fifoHeld (holding Config.reference ([0x03, 0x55] ++ vR1 ++ [0x07])) =
        [0x03, 0x55] ++ vR1 ++ [0x07] ∧
      ∀ n, n < 2 → Skippable Config.reference 0x03 (([0x03, 0x55] ++ vR1 ++ [0x07]).drop n) :=
  ⟨(inv_iff _).mpr (by decide), rfl, by decide, by decide, by decide⟩

theorem witness_PartialFrameWaitsAndIsDelivered :
    Inv (holding Config.reference (vR1.take 15)) ∧ ValidFrame Config.reference 0x03 vR1 ∧
      15 < vR1.length ∧ fifoHeld (holding Config.reference (vR1.take 15)) = vR1.take 15 ∧
      (∃ t, exec .rsmPoll (holding Config.reference (vR1.take 15)) = .next t ∧
        (atPayload vR1).rsmState = t.rsmState ∧ (atPayload vR1).rsmLen = t.rsmLen) ∧
      Inv (atPayload vR1) ∧ fifoHeld (atPayload vR1) = vR1 ++ [] :=
  ⟨(inv_iff _).mpr (by decide), by decide, by decide, by decide, ⟨_, rfl, by decide, by decide⟩,
    (inv_iff _).mpr (by decide), by decide⟩

theorem witness_WaitingPollCommutesWithPush :
    ∃ t s1 t1, Inv (holding Config.reference (vR1.take 21)) ∧
      (holding Config.reference (vR1.take 21)).fifoCount.toNat < 512 ∧
      exec .rsmPoll (holding Config.reference (vR1.take 21)) = .next t ∧ t.status = 0x03 ∧
      exec (.fifoPush 0xAA) (holding Config.reference (vR1.take 21)) = .next s1 ∧
      exec (.fifoPush 0xAA) t = .next t1 :=
  ⟨_, _, _, (inv_iff _).mpr (by decide), by decide, rfl, by decide, rfl, rfl⟩

theorem witness_PolledFrameValidates :
    ∃ t, Inv (holding Config.reference vR1) ∧
      (holding Config.reference vR1).rsmState ≠ .payloadPending ∧
      exec .rsmPoll (holding Config.reference vR1) = .next t ∧ t.status = 0x04 :=
  ⟨_, (inv_iff _).mpr (by decide), by decide, rfl, by decide⟩

theorem witness_RxPushRestartsTheWatchdog :
    Inv { full16 with fifoRd := 1, fifoCount := 15 } ∧ Inv full16 ∧
      full16.timers[0]? = some ⟨0, 1000⟩ ∧ full16.fifoCount.toNat = full16.cfg.fifoCap :=
  ⟨(inv_iff _).mpr (by decide), inv_full16, by decide, by decide⟩

/-- A check that does not fire at NOW 999, and one that fires at NOW 1000. -/
theorem witness_LinkCheckIsTheWatchdog :
    1 ≤ State.reset.cfg.nTimers ∧
      response (exec (.tmrTryfire 0) { State.reset with now := 999 }) = some (0x07, 0) ∧
      response (exec (.tmrTryfire 0) { State.reset with now := 1000 }) = some (0x06, 0) := by decide

theorem witness_TickIsCheckThenPoll :
    Inv { holding Config.reference vR1 with now := 999 } ∧
      Inv { holding Config.reference vR1 with now := 1000 } ∧
      response (exec .linkCheck { holding Config.reference vR1 with now := 1000 }) = some (0x06, 0) :=
  ⟨(inv_iff _).mpr (by decide), (inv_iff _).mpr (by decide), by decide⟩

/-- Timer 3 is the last of four; 0x0F, 0x24 and 0x34 name no CSR. -/
theorem witness_CsrRdReadsTheMap :
    State.reset.cfg.legal = true ∧ 3 < State.reset.cfg.nTimers ∧
      State.reset.timers[3]? = some ⟨0, 0⟩ ∧
      ∀ c ∈ ([0x0F, 0x1F, 0x24, 0x2F, 0x34, 0xFF] : List Byte),
        ¬ (c.toNat ≤ 0x0E ∨ (0x20 ≤ c.toNat ∧ c.toNat < 0x20 + State.reset.cfg.nTimers) ∨
          (0x30 ≤ c.toNat ∧ c.toNat < 0x30 + State.reset.cfg.nTimers)) := by decide

theorem witness_CsrWrWritesTheNamedRegister :
    State.reset.cfg.legal = true ∧ (0x0E : Byte) ∈ ([0x01, 0x02, 0x0B, 0x0C, 0x0D, 0x0E] : List Byte) ∧
      (0x23 : Byte).toNat < 0x20 + State.reset.cfg.nTimers ∧
      (0x33 : Byte).toNat < 0x30 + State.reset.cfg.nTimers ∧
      ¬ ((0x24 : Byte).toNat ≤ 0x0E ∨
        (0x20 ≤ (0x24 : Byte).toNat ∧ (0x24 : Byte).toNat < 0x20 + State.reset.cfg.nTimers) ∨
        (0x30 ≤ (0x24 : Byte).toNat ∧ (0x24 : Byte).toNat < 0x30 + State.reset.cfg.nTimers)) := by
  decide

end Sys2Proof.Machine.Tests
end

section
/-! PROOFS. A step is refused for its configuration alone (00_scope.md R8): no command's meaning is ever
a refusal, whatever the state. -/

namespace Sys2Proof.Machine

/-- The outcome is a next state or a fault: the machine gives it a meaning. -/
def NotRefused (o : Host.Outcome State Fault Refusal) : Prop := ∀ r, o ≠ .refused r

/-! ### Outcomes that are no refusal -/

theorem notRefused_iff (o : Host.Outcome State Fault Refusal) :
    NotRefused o ↔ ¬ ∃ r, o = .refused r := not_exists.symm

theorem notRefused_next (t : State) : NotRefused (.next t) := nofun

theorem notRefused_fault (f : Fault) : NotRefused (.fault f) := nofun

/-- The shape of every range or length check: the command's effect, or an error code. Both are next
states (60_exceptions.md R150). -/
theorem notRefused_checked (p : Prop) [Decidable p] (t u : State) :
    NotRefused (if p then .next t else .next u) := by
  split
  · exact notRefused_next t
  · exact notRefused_next u

/-! ### Commands with more branches than one check -/

theorem execFifoPop_notRefused (s : State) : NotRefused (execFifoPop s) := by
  unfold execFifoPop
  split
  · exact notRefused_next _
  · split
    · exact notRefused_next _
    · exact notRefused_fault _
    · exact notRefused_fault _

theorem execFifoPeek_notRefused (k : Half) (s : State) : NotRefused (execFifoPeek k s) := by
  unfold execFifoPeek
  split
  · split
    · exact notRefused_next _
    · exact notRefused_fault _
  · exact notRefused_next _

theorem execPktGetf_notRefused (f : Byte) (s : State) : NotRefused (execPktGetf f s) := by
  unfold execPktGetf
  split
  · exact notRefused_next _
  · exact notRefused_checked _ _ _

theorem execPktSetf_notRefused (f : Byte) (d : Word) (s : State) :
    NotRefused (execPktSetf f d s) := by
  unfold execPktSetf
  split
  · exact notRefused_next _
  · exact notRefused_checked _ _ _

theorem execRsmStep_notRefused (s : State) : NotRefused (execRsmStep s) := by
  unfold execRsmStep
  split
  · exact notRefused_fault _
  · exact notRefused_next _

theorem execRsmPoll_notRefused (s : State) : NotRefused (execRsmPoll s) := by
  unfold execRsmPoll
  split
  · exact notRefused_fault _
  · exact notRefused_next _

theorem execTick_notRefused (s : State) : NotRefused (execTick s) := by
  simp only [execTick]
  split
  · exact notRefused_fault _
  · exact notRefused_next _

theorem execCsrRd_notRefused (c : Byte) (s : State) : NotRefused (execCsrRd c s) := by
  unfold execCsrRd
  split
  · exact notRefused_next _
  · exact notRefused_next _

theorem execCsrWr_notRefused (c : Byte) (d : Word) (s : State) : NotRefused (execCsrWr c d s) := by
  unfold execCsrWr
  split
  · exact notRefused_next _
  · exact notRefused_checked _ _ _

/-! ### Every command, and the step -/

theorem exec_notRefused (i : Instr) (s : State) : NotRefused (exec i s) := by
  cases i with
  | fifoPush b => exact notRefused_next _
  | fifoPop => exact execFifoPop_notRefused s
  | fifoPeek k => exact execFifoPeek_notRefused k s
  | fifoAvail => exact notRefused_next _
  | fifoReset => exact notRefused_next _
  | tmrInit t d => exact notRefused_checked _ _ _
  | tmrElapsed t => exact notRefused_checked _ _ _
  | tmrTryfire t => exact notRefused_checked _ _ _
  | tmrRestart t => exact notRefused_checked _ _ _
  | pktRd k => exact notRefused_checked _ _ _
  | pktWr k b => exact notRefused_checked _ _ _
  | pktGetf f => exact execPktGetf_notRefused f s
  | pktSetf f d => exact execPktSetf_notRefused f d s
  | hdrCk => exact notRefused_next _
  | payCk => exact notRefused_checked _ _ _
  | pktValidate => exact notRefused_next _
  | pktFinalize => exact notRefused_checked _ _ _
  | rsmStep => exact execRsmStep_notRefused s
  | rsmPoll => exact execRsmPoll_notRefused s
  | rsmReset => exact notRefused_next _
  | rxPush b => exact notRefused_next _
  | linkCheck => exact notRefused_next _
  | linkSetest => exact notRefused_next _
  | tick => exact execTick_notRefused s
  | csrRd c => exact execCsrRd_notRefused c s
  | csrWr c d => exact execCsrWr_notRefused c d s

/-- An ILLEGAL command too has a next state (30_encoding.md R69). -/
theorem runCommand_notRefused (cmd data : Word) (s : State) : NotRefused (runCommand cmd data s) := by
  unfold runCommand
  split
  · exact exec_notRefused _ s
  · exact notRefused_next _

theorem step_of_illegal {s : State} (h : ¬ s.cfg.legal = true) :
    step s = .refused .illegalConfiguration := if_neg h

/-- In a legal configuration each of the four kinds of step has a meaning. -/
theorem step_notRefused {s : State} (h : s.cfg.legal = true) : NotRefused (step s) := by
  rw [step, if_pos h]
  split
  · exact notRefused_next _
  · exact runCommand_notRefused _ _ _
  · exact notRefused_next _
  · exact notRefused_next _

theorem step_refused_iff (s : State) : (∃ r, step s = .refused r) ↔ ¬ s.cfg.legal = true := by
  constructor
  · intro hr hl
    exact (notRefused_iff _).mp (step_notRefused hl) hr
  · intro hl
    exact ⟨.illegalConfiguration, step_of_illegal hl⟩

/-- Settles O9: a step is refused iff `Config.legal` fails (`step_refused_iff`), and `Config.legal` is
the inequalities of R8 (`Config.legal_iff`). -/
theorem refusedIffConfigurationIllegal : Obligations.RefusedIffConfigurationIllegal := by
  intro s
  rw [step_refused_iff, Config.legal_iff]

end Sys2Proof.Machine
end

section
/-! PROOFS. The CSR STATUS word (10_state.md R35): each field of the concatenation, and the two CSR
commands at its number. -/

namespace Sys2Proof.Machine

/-! ### The fields of the word -/

/-- Bit by bit, the table of R35; bits [31:6] are reserved. -/
theorem statusWord_getLsbD (s : State) (i : Nat) :
    (statusWord s).getLsbD i =
      if i < 2 then s.rsmState.code.getLsbD i
      else if i = 2 then s.linkEst
      else if i = 3 then s.fifoCount == 0
      else if i = 4 then fifoFull s
      else if i = 5 then s.pktResp
      else false := by
  simp only [statusWord, flagRsm, flagLink, flagEmpty, flagFull, flagResp, BitVec.getLsbD_append]
  obtain h | rfl | rfl | rfl | rfl | h :
    i < 2 ∨ i = 2 ∨ i = 3 ∨ i = 4 ∨ i = 5 ∨ 6 ≤ i := by omega
  case inl => rw [if_pos h, if_pos h]
  case inr.inr.inr.inr.inr =>
    repeat rw [if_neg (by omega)]
    exact BitVec.getLsbD_zero
  all_goals simp

theorem statusWord_rsm (s : State) : (statusWord s).toNat % 4 = s.rsmState.code.toNat := by
  have low : (statusWord s).setWidth 2 = flagRsm s := BitVec.setWidth_append_eq_right
  simpa [flagRsm] using congrArg BitVec.toNat low

theorem statusWord_lt (s : State) : (statusWord s).toNat < 2 ^ 6 := by
  apply Nat.lt_pow_two_of_testBit
  intro i hi
  rw [BitVec.testBit_toNat, statusWord_getLsbD]
  repeat rw [if_neg (by omega)]

theorem statusWord_empty (s : State) : (statusWord s).getLsbD 3 = true ↔ s.fifoCount = 0 := by
  rw [statusWord_getLsbD]
  exact beq_iff_eq

theorem statusWord_full (s : State) :
    (statusWord s).getLsbD 4 = true ↔ s.fifoCount.toNat = s.cfg.fifoCap := by
  rw [statusWord_getLsbD]
  exact beq_iff_eq

/-! ### The commands at the number of STATUS -/

/-- `0x01` names STATUS in every configuration (R34). -/
theorem csrOf_status (cfg : Config) : csrOf cfg 0x01 = some .status := rfl

theorem execCsrRd_status (s : State) :
    execCsrRd 0x01 s = .next (respond .ok (statusWord s) s) := by
  simp only [execCsrRd, csrOf_status, csrRead]

/-- STATUS is read-only (46_csr.md R140), so a write of it answers READ_ONLY (R142). -/
theorem execCsrWr_status (d : Word) (s : State) :
    execCsrWr 0x01 d s = .next (raiseErr .readOnly s) := by
  simp only [execCsrWr, csrOf_status, Csr.readOnly, if_true]

/-- Settles O57: CSR_RD answers `statusWord` (`execCsrRd_status`), whose fields are read one by one, and
CSR_WR answers READ_ONLY (`execCsrWr_status`). -/
theorem csrStatusWord : Obligations.CsrStatusWord := by
  intro s
  refine ⟨⟨respond .ok (statusWord s) s, execCsrRd_status s, rfl, (statusWord_rsm s).trans ?_,
    statusWord_getLsbD s 2, statusWord_empty s, statusWord_full s, statusWord_getLsbD s 5,
    statusWord_lt s⟩, fun d => execCsrWr_status d s⟩
  cases s.rsmState <;> rfl

end Sys2Proof.Machine
end

section
/-! PROOFS. The check function (20_memory.md R50): one equation per algorithm, in the fold that R50
writes, and what each says of the empty list and of a further byte. -/

namespace Sys2Proof.Machine

/-! ### SUM8 -/

/-- The one reduction modulo 256 at the end is the sum's value, as R50 writes it. -/
theorem ck_sum8_toNat (l : List Byte) :
    (ck .sum8 l).toNat = (l.map BitVec.toNat).sum % 256 :=
  BitVec.toNat_ofNat _ 8

@[simp] theorem ck_sum8_nil : ck .sum8 [] = 0 := rfl

/-! ### XOR8 -/

/-- The running check from the left is the exclusive-or nested to the right, since exclusive-or is
associative and commutative. -/
theorem ck_xor8_eq_foldr (l : List Byte) : ck .xor8 l = l.foldr (· ^^^ ·) 0 :=
  List.foldl_eq_foldr

@[simp] theorem ck_xor8_nil : ck .xor8 [] = 0 := rfl

theorem ck_xor8_cons (b : Byte) (l : List Byte) : ck .xor8 (b :: l) = b ^^^ ck .xor8 l := by
  rw [ck_xor8_eq_foldr, List.foldr_cons, ← ck_xor8_eq_foldr]

/-- Settles O31: the sum is `ck_sum8_toNat`, and the exclusive-or follows the list by
`ck_xor8_cons`. -/
theorem checkFunction : Obligations.CheckFunction :=
  ⟨ck_sum8_toNat, fun l b => ck_xor8_cons b l, ck_sum8_nil, ck_xor8_nil⟩

end Sys2Proof.Machine
end

section
/-! PROOFS. The ILLEGAL command (30_encoding.md R69): the decoder reads `OP`, looks it up and checks the
must-be-0 bits (R71), and that answers an error exactly where no row's mask and match select the word. -/

namespace Sys2Proof

/-! ### The opcode map -/

theorem opcodeOf_eq_some_iff (op : Byte) (o : Opcode) : opcodeOf op = some o ↔ op = o.code := by
  constructor
  · intro h
    have found : (o.code == op) = true := by simpa using List.find?_some h
    exact (beq_iff_eq.mp found).symm
  · rintro rfl
    exact opcodeOf_code o

/-- No two rows share an `OP`. -/
theorem Opcode.code_injective : Function.Injective Opcode.code := fun o p h =>
  Option.some.inj ((opcodeOf_code o).symm.trans ((opcodeOf_eq_some_iff _ p).mpr h))

theorem opcodeOf_eq_none_iff (op : Byte) : opcodeOf op = none ↔ ∀ o : Opcode, op ≠ o.code := by
  simp only [Option.eq_none_iff_forall_ne_some, ne_eq, opcodeOf_eq_some_iff]

/-- The `OP` ranges that R69 lists. -/
abbrev UnassignedOp (op : Nat) : Prop :=
  op ≤ 0x0F ∨ (0x15 ≤ op ∧ op ≤ 0x1F) ∨ (0x24 ≤ op ∧ op ≤ 0x2F) ∨
    (0x38 ≤ op ∧ op ≤ 0x3F) ∨ (0x43 ≤ op ∧ op ≤ 0x4F) ∨ (0x54 ≤ op ∧ op ≤ 0x5F) ∨ 0x62 ≤ op

/-- The listed ranges are the bytes that R68 assigns to no command: with the 26 codes written out as
numbers, the gaps between them. -/
theorem opcodeOf_eq_none_iff_unassignedOp (op : Byte) :
    opcodeOf op = none ↔ UnassignedOp op.toNat := by
  simp only [opcodeOf, List.find?_eq_none, Opcode.all, List.forall_mem_cons, Opcode.code, beq_iff_eq,
    ← BitVec.toNat_inj, List.not_mem_nil, false_imp_iff, implies_true, and_true, BitVec.reduceToNat,
    UnassignedOp]
  omega

/-! ### The fields of a CMD word -/

theorem opField_toNat (cmd : Word) : (opField cmd).toNat = cmd.toNat / 2 ^ 24 := by
  have lt := cmd.isLt
  simp only [opField, BitVec.extractLsb'_toNat, Nat.shiftRight_eq_div_pow]
  omega

/-- The must-be-0 bits of a format are those of its mask below `OP` (R66). -/
theorem reservedMask_eq (m : Format) :
    m.mask &&& 0x00FFFFFF = cmdWord 0 (reservedA m) (reservedImm m) := by
  cases m <;> decide

theorem and_reservedMask_eq_zero_iff (cmd : Word) (m : Format) :
    cmd &&& (m.mask &&& 0x00FFFFFF) = 0 ↔
      aField cmd &&& reservedA m = 0 ∧ immField cmd &&& reservedImm m = 0 := by
  rw [reservedMask_eq]
  conv_lhs => rw [← cmdWord_fields cmd, show (0 : Word) = cmdWord 0 0 0 from by decide]
  rw [cmdWord_and, cmdWord_inj]
  simp

/-- A row is selected iff `OP` is the row's and its must-be-0 bits are 0. -/
theorem Opcode.selects_iff (o : Opcode) (cmd : Word) :
    o.selects cmd = true ↔
      opField cmd = o.code ∧ cmd &&& (o.format.mask &&& 0x00FFFFFF) = 0 := by
  rw [and_reservedMask_eq_zero_iff, ← selects_cmdWord, cmdWord_fields]

/-! ### The words that decode to an error -/

/-- The decoder tries the row of `OP` alone, and no other row could select the word. -/
theorem decode_error_iff_selects_none (cmd data : Word) :
    (∃ e, decode cmd data = .error e) ↔ ∀ o : Opcode, ¬ o.selects cmd = true := by
  cases h : opcodeOf (opField cmd) with
  | none =>
    have noRow : ∀ o : Opcode, ¬ o.selects cmd = true := fun o hs =>
      (opcodeOf_eq_none_iff _).mp h o ((o.selects_iff cmd).mp hs).1
    simp [decode, h, noRow]
  | some o =>
    have onlyRow : ∀ p : Opcode, p.selects cmd = true → p = o := fun p hs =>
      Opcode.code_injective
        (((p.selects_iff cmd).mp hs).1.symm.trans ((opcodeOf_eq_some_iff _ o).mp h))
    by_cases hs : o.selects cmd = true
    · simpa [decode, h, hs] using ⟨o, hs⟩
    · have noRow : ∀ p : Opcode, ¬ p.selects cmd = true := fun p hp => hs (onlyRow p hp ▸ hp)
      simp [decode, h, noRow]

/-- The two ways to select no row (R69): an unassigned `OP`, or a must-be-0 bit that is 1. -/
theorem selects_none_iff (cmd : Word) :
    (∀ o : Opcode, ¬ o.selects cmd = true) ↔
      opcodeOf (opField cmd) = none ∨
        ∃ o : Opcode, opField cmd = o.code ∧ cmd &&& (o.format.mask &&& 0x00FFFFFF) ≠ 0 := by
  simp only [Opcode.selects_iff, not_and]
  constructor
  · intro hno
    cases h : opcodeOf (opField cmd) with
    | none => exact .inl rfl
    | some o =>
      have hop : opField cmd = o.code := (opcodeOf_eq_some_iff _ o).mp h
      exact .inr ⟨o, hop, hno o hop⟩
  · rintro (hnone | ⟨o, hop, hres⟩) p hp
    · exact absurd hp ((opcodeOf_eq_none_iff _).mp hnone p)
    · obtain rfl : o = p := Opcode.code_injective (hop.symm.trans hp)
      exact hres

end Sys2Proof

namespace Sys2Proof.Machine

/-! ### The step on an ILLEGAL command -/

theorem step_host {s : State} {now cmd data : Word} {rest : List PortEvent}
    (hl : s.cfg.legal = true) (hi : s.inputs = .host now cmd data :: rest) :
    step s = runCommand cmd data (sampleNow now rest s) := by
  rw [step, if_pos hl, hi]

theorem runCommand_of_decode_error {cmd data : Word} {e : DecodeError}
    (h : decode cmd data = .error e) (s : State) :
    runCommand cmd data s = .next (raiseErr .illegal s) := by
  rw [runCommand, h]
  rfl

/-- Settles O3: a decode error is the word that selects no row (`decode_error_iff_selects_none`), for one
of the two reasons of R69 (`selects_none_iff`), and its step is `raise Err(ILLEGAL)`
(`runCommand_of_decode_error`). -/
theorem illegalIffSelectsNoRow : Obligations.IllegalIffSelectsNoRow := by
  intro cmd data
  refine ⟨?_, ?_, ?_⟩
  · simp only [decode_error_iff_selects_none, Opcode.selects, Opcode.matchWord, beq_iff_eq, ne_eq]
  · simp only [decode_error_iff_selects_none, selects_none_iff, opcodeOf_eq_none_iff_unassignedOp,
      ← BitVec.toNat_inj, opField_toNat]
  · rintro ⟨e, he⟩ s now rest hl hi
    rw [step_host hl hi, runCommand_of_decode_error he]
    rfl

end Sys2Proof.Machine
end

section
/-! PROOFS. The FIFO commands that move bytes (41_fifo.md R84, R85, R88): each is one primitive of R81 to
R83 and a response, and the response is no part of the queue. -/

namespace Sys2Proof.Machine

@[simp] theorem fifoHeld_respond (c : StatusCode) (r : Word) (s : State) :
    fifoHeld (respond c r s) = fifoHeld s :=
  fifoHeld_congr rfl rfl rfl rfl

/-! ### Where the primitives leave their cursor -/

theorem fifoPut_fifoWr {s t : State} {b : Byte} (h : fifoPut b s = (.ok, t)) :
    t.fifoWr = cursorNext s.cfg s.fifoWr := by
  rw [fifoPut] at h
  split at h
  · cases h
  · cases h
    rfl

theorem fifoDrop_fifoRd {s t : State} (h : fifoDrop s = .ok t) :
    t.fifoRd = cursorNext s.cfg s.fifoRd := by
  rw [fifoDrop] at h
  split at h
  · cases h
  · cases h
    rfl

/-! ### FIFO_PUSH -/

/-- FIFO_PUSH answers with the put's own code and the count after it (R84). -/
theorem execFifoPush_of_fifoPut {s t : State} {b : Byte} {c : StatusCode}
    (h : fifoPut b s = (c, t)) :
    execFifoPush b s = .next (respond c (t.fifoCount.setWidth 32) t) := by
  rw [execFifoPush, h]

theorem execFifoPush_full {s : State} (b : Byte) (h : s.fifoCount.toNat = s.cfg.fifoCap) :
    execFifoPush b s =
      .next (respond .overflow (BitVec.ofNat 32 s.cfg.fifoCap) { s with ovfCnt := s.ovfCnt + 1 }) := by
  rw [execFifoPush_of_fifoPut (fifoPut_full b h), ← h, BitVec.ofNat_toNat]

/-- Settles O21: with room it is `fifoPut_room`, read slot by slot with `Memory.read_write`; a full FIFO
is `execFifoPush_full`. -/
theorem fifoPushAppendsOrDrops : Obligations.FifoPushAppendsOrDrops := by
  intro s b hinv
  refine ⟨fun hroom => ?_, fun hfull => execFifoPush_full b hfull⟩
  obtain ⟨hwf, -⟩ := hinv.storage
  obtain ⟨t, hput, hheld, -, hcount, hframe⟩ := fifoPut_room b hinv.legal hinv.fifo hwf hroom
  have hmem : t.fifoMem = Memory.write s.fifoMem s.fifoWr.toNat b := by rw [hframe]
  refine ⟨respond .ok (t.fifoCount.setWidth 32) t, execFifoPush_of_fifoPut hput, ?held, rfl,
    ?result, ?frame, ?cursor, ?written, ?kept⟩
  case held => rw [fifoHeld_respond, hheld]
  case result =>
    rw [respond_result, BitVec.toNat_setWidth_of_le (by decide), hcount]
  case frame =>
    rw [hframe]
    rfl
  case cursor => rw [respond_fifoWr, fifoPut_fifoWr hput, cursorNext_toNat hinv.legal]
  case written => rw [respond_fifoMem, hmem, Memory.read_write hwf, if_pos rfl]
  case kept =>
    intro a ha
    rw [respond_fifoMem, hmem, Memory.read_write hwf, if_neg ha]

/-! ### FIFO_POP -/

theorem execFifoPop_empty {s : State} (h : s.fifoCount = 0) :
    execFifoPop s = .next (respond .empty 0 s) := if_pos h

/-- FIFO_POP on a FIFO that holds a byte is `FifoPeek(0)`, then `FifoDrop()` (R85). -/
theorem execFifoPop_of_fifoDrop {s t : State} {b : Byte} (h : s.fifoCount ≠ 0)
    (hpeek : fifoPeek s 0 = .ok b) (hdrop : fifoDrop s = .ok t) :
    execFifoPop s = .next (respond .ok (b.setWidth 32) t) := by
  rw [execFifoPop, if_neg h, hpeek, hdrop]

/-- The head of the queue is what `FifoPeek(0)` answers. -/
theorem fifoPeek_zero_of_held {s : State} {b : Byte} {bs : List Byte} (h : fifoHeld s = b :: bs) :
    fifoPeek s 0 = .ok b := by
  have hpos : 0 < s.fifoCount.toNat := by
    rw [← fifoHeld_length, h]
    exact Nat.succ_pos _
  rw [fifoPeek_held hpos]
  simp [h]

/-- Settles O22: no byte held is `execFifoPop_empty`; a held byte is peeked (`fifoPeek_zero_of_held`)
and dropped (`fifoDrop_spec`). -/
theorem fifoPopTakesTheOldest : Obligations.FifoPopTakesTheOldest := by
  intro s hinv
  refine ⟨fun hnil => execFifoPop_empty ((fifoHeld_nil_iff s).mp hnil), fun b bs hcons => ?_⟩
  have hne : s.fifoCount ≠ 0 := fun h0 => by simp [(fifoHeld_nil_iff s).mpr h0] at hcons
  obtain ⟨t, hdrop, hheld, -, hframe⟩ := fifoDrop_spec hinv.legal hinv.fifo hne
  refine ⟨respond .ok (b.setWidth 32) t,
    execFifoPop_of_fifoDrop hne (fifoPeek_zero_of_held hcons) hdrop, ?held, rfl, ?result, ?cursor,
    ?frame⟩
  case held =>
    rw [hheld] at hcons
    exact (fifoHeld_respond _ _ _).trans (List.tail_eq_of_cons_eq hcons)
  case result => rw [respond_result, BitVec.toNat_setWidth_of_le (by decide)]
  case cursor => rw [respond_fifoRd, fifoDrop_fifoRd hdrop, cursorNext_toNat hinv.legal]
  case frame =>
    rw [hframe]
    rfl

/-! ### FIFO_RESET -/

/-- Settles O24: FIFO_RESET is `FifoClear()`, which empties the queue (`fifoHeld_clear`). -/
theorem fifoResetEmpties : Obligations.FifoResetEmpties := fun s =>
  ⟨respond .ok 0 (fifoClear s), rfl, (fifoHeld_respond _ _ _).trans (fifoHeld_clear s), rfl⟩

end Sys2Proof.Machine
end

section
/-! PROOFS. The timer commands (42_timer.md R90 to R95): the check of the timer number comes first, and
past it TMR_ELAPSED and TMR_TRYFIRE read one timer. -/

namespace Sys2Proof

/-- The timer rows are of formats T and TD, where the whole `IMM` field must be 0 (R66, R68). -/
theorem reservedImm_of_timer_code (o : Opcode)
    (h : o.code ∈ ([0x20, 0x21, 0x22, 0x23] : List Byte)) :
    reservedImm o.format = BitVec.allOnes 16 := by
  revert h
  cases o <;> decide

/-- A timer command with a nonzero `IMM` field selects no row, whatever its timer number. -/
theorem timerWord_selects_none {op a : Byte} {imm : Half}
    (hop : op ∈ ([0x20, 0x21, 0x22, 0x23] : List Byte)) (himm : imm ≠ 0) (o : Opcode) :
    ¬ o.selects (cmdWord op a imm) = true := by
  rw [selects_cmdWord]
  rintro ⟨rfl, -, hres⟩
  rw [reservedImm_of_timer_code o hop, BitVec.and_allOnes] at hres
  exact himm hres

end Sys2Proof

namespace Sys2Proof.Machine

/-! ### The timer number -/

theorem timerInRange_iff (s : State) (t : Byte) :
    timerInRange s t = true ↔ t.toNat < s.cfg.nTimers := decide_eq_true_iff

theorem not_timerInRange {s : State} {t : Byte} (h : s.cfg.nTimers ≤ t.toNat) :
    ¬ timerInRange s t = true := by
  rw [timerInRange_iff]
  exact Nat.not_lt.mpr h

theorem execTmrElapsed_inRange {s : State} {t : Byte} (h : t.toNat < s.cfg.nTimers) :
    execTmrElapsed t s = .next (respond .ok (elapsed s t.toNat) s) :=
  if_pos ((timerInRange_iff s t).mpr h)

/-- TMR_TRYFIRE answers with what the firing check returns, in the state it leaves (R95). -/
theorem execTmrTryfire_of_tryFire {s u : State} {t : Byte} {f : Fire}
    (h : t.toNat < s.cfg.nTimers) (hf : tryFire t.toNat s = (f, u)) :
    execTmrTryfire t s = .next (respond f.status f.overshoot u) := by
  rw [execTmrTryfire, if_pos ((timerInRange_iff s t).mpr h), hf]

/-- Settles O25: each of the four commands takes the failing side of its range check, and a nonzero
`IMM` field is ILLEGAL in the decoder, before that check (`timerWord_selects_none`). -/
theorem timerIndexOutOfRange : Obligations.TimerIndexOutOfRange := by
  intro s t d hout
  have hno := not_timerInRange hout
  refine ⟨if_neg hno, if_neg hno, if_neg hno, if_neg hno, fun op imm hop himm => ?_⟩
  obtain ⟨e, he⟩ := (decode_error_iff_selects_none (cmdWord op t imm) d).mpr
    (timerWord_selects_none hop himm)
  exact runCommand_of_decode_error he s

/-! ### TMR_ELAPSED -/

theorem timerAt_of_getElem? {s : State} {t : Nat} {tm : Timer} (h : s.timers[t]? = some tm) :
    timerAt s t = tm := by
  rw [timerAt, List.getD_eq_getElem?_getD, h, Option.getD_some]

/-- The difference is below the clock, so narrowing it to 32 bits loses nothing (R90). -/
theorem elapsed_toNat {s : State} {t : Nat} (h : (timerAt s t).last.toNat ≤ s.now.toNat) :
    (elapsed s t).toNat = s.now.toNat - (timerAt s t).last.toNat := by
  rw [elapsed, if_pos h, BitVec.toNat_ofNat]
  exact Nat.mod_eq_of_lt (Nat.lt_of_le_of_lt (Nat.sub_le _ _) s.now.isLt)

theorem elapsed_backward {s : State} {t : Nat} (h : s.now.toNat < (timerAt s t).last.toNat) :
    elapsed s t = 0 := if_neg (Nat.not_le.mpr h)

/-- Settles O28: RESULT is `Elapsed(t)`, on the two sides of the clock comparison. -/
theorem tmrElapsedMeasures : Obligations.TmrElapsedMeasures := by
  intro s t tm hin htm
  obtain rfl := timerAt_of_getElem? htm
  exact ⟨respond .ok (elapsed s t.toNat) s, execTmrElapsed_inRange hin, rfl, elapsed_toNat,
    elapsed_backward⟩

/-! ### TMR_TRYFIRE -/

/-- The firing comparison, by `P_TMR_CMP` (R91). -/
theorem fires_iff (c : TmrCmp) (diff intv : Nat) :
    fires c diff intv = true ↔ (c = .ge ∧ intv ≤ diff) ∨ (c = .gt ∧ intv < diff) := by
  cases c <;> simp [fires]

section
variable {s : State} {t : Nat}

/-- A clock behind the reference time resynchronises it (R91). -/
theorem tryFire_backward (h : s.now.toNat < (timerAt s t).last.toNat) :
    tryFire t s = (.notFired, setLast t s.now s) := if_pos h

variable (hclock : (timerAt s t).last.toNat ≤ s.now.toNat)
include hclock

theorem tryFire_of_not_fires
    (hf : ¬ fires s.cfg.tmrCmp (s.now.toNat - (timerAt s t).last.toNat)
      (timerAt s t).intv.toNat = true) :
    tryFire t s = (.notFired, s) :=
  (if_neg (Nat.not_lt.mpr hclock)).trans (if_neg hf)

variable (hf : fires s.cfg.tmrCmp (s.now.toNat - (timerAt s t).last.toNat)
  (timerAt s t).intv.toNat = true)
include hf

/-- A fire more than one interval behind snaps the reference time to NOW (R91). -/
theorem tryFire_snap
    (hover : (timerAt s t).intv.toNat <
      s.now.toNat - (timerAt s t).last.toNat - (timerAt s t).intv.toNat) :
    tryFire t s =
      (.fired (BitVec.ofNat 32
        (s.now.toNat - (timerAt s t).last.toNat - (timerAt s t).intv.toNat)),
        setLast t s.now s) :=
  (if_neg (Nat.not_lt.mpr hclock)).trans ((if_pos hf).trans (if_pos hover))

/-- Any other fire moves the reference time on by one interval (R91). -/
theorem tryFire_catchUp
    (hover : s.now.toNat - (timerAt s t).last.toNat - (timerAt s t).intv.toNat ≤
      (timerAt s t).intv.toNat) :
    tryFire t s =
      (.fired (BitVec.ofNat 32
        (s.now.toNat - (timerAt s t).last.toNat - (timerAt s t).intv.toNat)),
        setLast t (BitVec.ofNat 32 ((timerAt s t).last.toNat + (timerAt s t).intv.toNat)) s) :=
  (if_neg (Nat.not_lt.mpr hclock)).trans ((if_pos hf).trans (if_neg (Nat.not_lt.mpr hover)))

end

/-- Settles O29: the firing check at each of its four branches, and TMR_TRYFIRE answers with it
(`execTmrTryfire_of_tryFire`). -/
theorem tmrTryfireBranches : Obligations.TmrTryfireBranches := by
  intro s t tm hin htm now last intv fire
  obtain rfl := timerAt_of_getElem? htm
  have hfire : fires s.cfg.tmrCmp (now - last) intv = true ↔ fire := fires_iff _ _ _
  refine ⟨fun hback => ?backward, fun hclock hf => ?stays, fun hclock hf hover => ?snap,
    fun hclock hf hover => ?catchUp⟩
  case backward => exact execTmrTryfire_of_tryFire hin (tryFire_backward hback)
  case stays => exact execTmrTryfire_of_tryFire hin (tryFire_of_not_fires hclock (mt hfire.mp hf))
  case snap => exact execTmrTryfire_of_tryFire hin (tryFire_snap hclock (hfire.mpr hf) hover)
  case catchUp => exact execTmrTryfire_of_tryFire hin (tryFire_catchUp hclock (hfire.mpr hf) hover)

end Sys2Proof.Machine
end

section
/-! PROOFS. RSM_STEP at each state of the reassembler (44_reassembler.md R116 to R121): the transition laws
of Sys2Proof/Laws/Reassembler.lean with the response of R121, over the queue of held bytes. -/

namespace Sys2Proof.Machine

/-! ### The response of RSM_STEP -/

/-- The low half of RESULT, where no frame was delivered, is `rsm_state` in a whole word (R121). -/
theorem rsmState_code_setWidth (t : State) :
    (t.rsmState.code.setWidth 16).setWidth 32 = rsmStateWord t := by
  rw [rsmStateWord]
  cases t.rsmState <;> rfl

theorem execRsmStep_cont {s t : State} (h : rsmTransition s = .ok (.cont, t)) :
    execRsmStep s = .next (respond .cont (rsmStateWord t) t) := by
  rw [← rsmState_code_setWidth, execRsmStep, h]
  rfl

theorem execRsmStep_notReady {s t : State} (h : rsmTransition s = .ok (.notReady, t)) :
    execRsmStep s = .next (respond .notReady (rsmStateWord t) t) := by
  rw [← rsmState_code_setWidth, execRsmStep, h]
  rfl

theorem execRsmStep_ready {s t : State} {dl : Half} (h : rsmTransition s = .ok (.ready dl, t)) :
    execRsmStep s = .next (respond .ready (dl.setWidth 32) t) := by
  rw [execRsmStep, h]
  rfl

theorem rsmStateWord_seeking {s : State} (h : s.rsmState = .seeking) : rsmStateWord s = 0 := by
  rw [rsmStateWord, h]
  rfl

theorem rsmStateWord_headerPending {s : State} (h : s.rsmState = .headerPending) :
    rsmStateWord s = 1 := by
  rw [rsmStateWord, h]
  rfl

theorem rsmStateWord_payloadPending {s : State} (h : s.rsmState = .payloadPending) :
    rsmStateWord s = 2 := by
  rw [rsmStateWord, h]
  rfl

/-! ### The transition of each state -/

theorem rsmTransition_seeking {s : State} (h : s.rsmState = .seeking) :
    rsmTransition s = rsmSeek s := by
  rw [rsmTransition, h]

theorem rsmTransition_headerPending {s : State} (h : s.rsmState = .headerPending) :
    rsmTransition s = rsmHeader s := by
  rw [rsmTransition, h]

theorem rsmTransition_payloadPending {s : State} (h : s.rsmState = .payloadPending) :
    rsmTransition s = rsmPayload s := by
  rw [rsmTransition, h]

/-! ### The queue at the discard -/

theorem fifoCount_ne_zero_of_le {s : State} {n : Nat} (hn : 0 < n) (h : n ≤ s.fifoCount.toNat) :
    s.fifoCount ≠ 0 := by
  intro h0
  simp [h0] at h
  omega

theorem fifoCount_ne_zero_of_held {s : State} {b : Byte} {bs : List Byte}
    (h : fifoHeld s = b :: bs) : s.fifoCount ≠ 0 := by
  intro h0
  simp [(fifoHeld_nil_iff s).mpr h0] at h

/-- The head of the queue is the byte at distance 0. -/
theorem fifoByte_zero_of_held {s : State} {b : Byte} {bs : List Byte} (h : fifoHeld s = b :: bs) :
    fifoByte s 0 = b := by
  have hpos : 0 < (fifoHeld s).length := by simp [h]
  rw [← fifoHeld_getElem s 0 hpos]
  simp [h]

/-- `junkOne_spec` with the queue on the other side: the discard leaves the tail. -/
theorem junkOne_tail {s : State} (hinv : Inv s) (h : s.fifoCount ≠ 0) :
    ∃ t, junkOne s = .ok t ∧ fifoHeld t = (fifoHeld s).tail ∧
      t = { s with
        fifoRd := t.fifoRd
        fifoCount := s.fifoCount - 1
        junkCnt := s.junkCnt + 1 } := by
  obtain ⟨t, ht, hheld, -, hframe⟩ := junkOne_spec hinv.legal hinv.fifo h
  exact ⟨t, ht, by rw [hheld, List.tail_cons], hframe⟩

/-! ### The conditions on the peeked bytes -/

theorem byteAt_take {l : List Byte} {i n : Nat} (h : i < n) : byteAt (l.take n) i = l.getD i 0 := by
  simp [byteAt, h]

/-- The length field lies in the 15 peeked bytes. -/
theorem frameLength_take (c : Config) (l : List Byte) :
    frameLength c (l.take 15) = lengthOf c l := by
  rw [frameLength, byteAt_take (by decide), byteAt_take (by decide)]

theorem lengthLegal_iff (c : Config) (dl : Half) :
    lengthLegal c dl = true ↔ 16 ≤ dl.toNat ∧ dl.toNat ≤ c.maxFrame := decide_eq_true_iff

/-- R117 accepts the 15 peeked bytes iff the bytes that begin with them meet the first three conditions
of 20_memory.md R53. -/
theorem headerAccepted_take_iff (c : Config) (rev : Byte) (l : List Byte) :
    headerAccepted c rev (l.take 15) = true ↔ HeaderGood c rev l := by
  have hchecked : bytesFrom (l.take 15) 0 14 = l.take 14 := by
    simp [bytesFrom, List.take_take]
  rw [headerAccepted, Bool.and_eq_true, Bool.and_eq_true, beq_iff_eq, beq_iff_eq,
    byteAt_take (by decide), byteAt_take (by decide), hchecked, frameLength_take, lengthLegal_iff,
    and_assoc]

/-- R119's payload check of a peeked frame (20_memory.md R52). -/
theorem payloadPasses_iff (c : Config) (dl : Nat) (F : List Byte) :
    payloadPasses c dl F = true ↔
      F.getD (dl - 1) 0 = ck c.ckAlg ((F.drop 15).take (dl - 16)) := beq_iff_eq

/-! ### The delivered bytes -/

theorem pktByte_congr {s t : State} (h : t.pkt = s.pkt) (i : Nat) : pktByte t i = pktByte s i := by
  rw [pktByte, pktByte, h]

/-- `MemRead` gives back what `MemWrite` stored. -/
theorem pktBytes_putMany {s : State} (hm : Memory.wf s.pkt) (l : List Byte) (i : Nat) :
    pktBytes (pktPutMany i l s) i l.length = l := by
  apply List.ext_getElem (pktBytes_length _ _ _)
  intro j hj hjl
  simp [pktBytes, pktByte_putMany hm, hjl]

/-! ### RSM_STEP in Seeking -/

/-- Settles O42: the three cases of R116 are `rsmSeek_empty`, `rsmSeek_tag` and `rsmSeek_junk`. -/
theorem seekingStep : Obligations.SeekingStep := by
  intro s hinv hseek
  have htrans := rsmTransition_seeking hseek
  refine ⟨fun hnil => ?empty, fun bs hcons => ?tag, fun b bs hcons hb => ?junk⟩
  case empty =>
    rw [rsmSeek_empty ((fifoHeld_nil_iff s).mp hnil)] at htrans
    rw [exec_rsmStep, execRsmStep_notReady htrans, rsmStateWord_seeking hseek]
    rfl
  case tag =>
    rw [rsmSeek_tag (fifoCount_ne_zero_of_held hcons) (fifoByte_zero_of_held hcons)] at htrans
    exact execRsmStep_cont htrans
  case junk =>
    have hne := fifoCount_ne_zero_of_held hcons
    obtain ⟨t, ht, hheld, hframe⟩ := junkOne_tail hinv hne
    have hstate : t.rsmState = .seeking := by rw [hframe]; exact hseek
    rw [rsmSeek_junk hne (by rwa [fifoByte_zero_of_held hcons]) ht] at htrans
    refine ⟨respond .cont 0 t, ?_, ?_, ?_⟩
    · rw [exec_rsmStep, execRsmStep_cont htrans, rsmStateWord_seeking hstate]
    · rw [fifoHeld_respond, hheld, hcons, List.tail_cons]
    · rw [hframe]
      rfl

/-! ### RSM_STEP in HeaderPending -/

/-- Settles O43: the three cases of R117 are `rsmHeader_wait`, `rsmHeader_accept` and
`rsmHeader_reject`; `headerAccepted_take_iff` says which header passes. -/
theorem headerPendingStep : Obligations.HeaderPendingStep := by
  intro s hinv hpending
  have htrans := rsmTransition_headerPending hpending
  refine ⟨fun hfew => ?wait, fun henough hgood => ?accept, fun henough hbad => ?reject⟩
  case wait =>
    rw [rsmHeader_wait hfew] at htrans
    rw [exec_rsmStep, execRsmStep_notReady htrans, rsmStateWord_headerPending hpending]
    rfl
  case accept =>
    rw [rsmHeader_accept henough ((headerAccepted_take_iff _ _ _).mpr hgood),
      frameLength_take] at htrans
    exact execRsmStep_cont htrans
  case reject =>
    have hrefused := Bool.eq_false_iff.mpr (mt (headerAccepted_take_iff _ _ _).mp hbad)
    obtain ⟨t, ht, hheld, hframe⟩ := junkOne_tail hinv (fifoCount_ne_zero_of_le (by decide) henough)
    rw [rsmHeader_reject henough hrefused ht] at htrans
    refine ⟨_, execRsmStep_cont htrans, hheld, ?_⟩
    rw [hframe]
    rfl

/-! ### RSM_STEP in PayloadPending -/

/-- Settles O44: the three cases of R118 to R120 are `rsmPayload_wait`, `rsmPayload_reject` and
`rsmPayload_deliver`; the invariant gives the legal length they ask for (10_state.md R30). -/
theorem payloadPendingStep : Obligations.PayloadPendingStep := by
  intro s hinv hpending dl F pass
  obtain ⟨-, hlatched, -⟩ := hinv.rsm
  have hlegal := hlatched hpending
  have hpass : payloadPasses s.cfg dl F = true ↔ pass := payloadPasses_iff _ _ _
  have htrans := rsmTransition_payloadPending hpending
  refine ⟨fun hfew => ?wait, fun henough hbad => ?reject, fun henough hgood => ?deliver⟩
  case wait =>
    rw [rsmPayload_wait hfew] at htrans
    rw [exec_rsmStep, execRsmStep_notReady htrans, rsmStateWord_payloadPending hpending]
    rfl
  case reject =>
    obtain ⟨hmin, -⟩ := (lengthLegal_iff _ _).mp hlegal
    have hrefused := Bool.eq_false_iff.mpr (mt hpass.mp hbad)
    obtain ⟨t, ht, hheld, hframe⟩ := junkOne_tail hinv
      (fifoCount_ne_zero_of_le (by decide) (hmin.trans henough))
    rw [rsmPayload_reject henough hlegal hrefused ht] at htrans
    refine ⟨_, execRsmStep_cont htrans, hheld, ?_⟩
    rw [hframe]
    rfl
  case deliver =>
    obtain ⟨-, -, hwf, -⟩ := hinv.storage
    obtain ⟨t, ht, hheld, -, -, hframe⟩ :=
      rsmPayload_deliver hinv.legal hinv.fifo henough hlegal (hpass.mpr hgood)
    rw [ht] at htrans
    have hlen : F.length = dl := by
      rw [List.length_take, fifoHeld_length, Nat.min_eq_left henough]
    have hpkt (i : Nat) : pktByte t i = pktByte (pktPutMany 0 F s) i :=
      pktByte_congr (by rw [hframe]) i
    refine ⟨respond .ready (s.rsmLen.setWidth 32) t, execRsmStep_ready htrans, hheld, ?frame,
      fun i hi => ?beyond, ?length, ?kept⟩
    case frame =>
      calc pktBytes t 0 dl
        _ = pktBytes (pktPutMany 0 F s) 0 dl := pktBytes_congr fun i _ _ => hpkt i
        _ = F := by rw [← hlen, pktBytes_putMany hwf]
    case beyond =>
      calc pktByte t i
        _ = pktByte (pktPutMany 0 F s) i := hpkt i
        _ = pktByte s i := by rw [pktByte_putMany hwf, if_neg (by omega)]
    case length => rw [respond_result, BitVec.toNat_setWidth_of_le (by decide)]
    case kept =>
      rw [hframe]
      rfl

end Sys2Proof.Machine
end

section
/-! PROOFS. LINK_CHECK (45_link.md R131, R135): the firing check of timer 0, with `LinkTimeout()` after it
when it fired. -/

namespace Sys2Proof.Machine

/-! ### LINK_CHECK -/

theorem execLinkCheck_of_notFired {s t : State} (h : tryFire 0 s = (.notFired, t)) :
    execLinkCheck s = .next (respond .notFired 0 t) := by
  rw [execLinkCheck, checkTimeout, h]
  rfl

theorem execLinkCheck_of_fired {s t : State} {v : Word} (h : tryFire 0 s = (.fired v, t)) :
    execLinkCheck s = .next (respond .fired v (linkTimeout t)) := by
  rw [execLinkCheck, checkTimeout, h]
  rfl

/-- Settles O53: TMR_TRYFIRE of timer 0 and LINK_CHECK read the same firing check, whose two outcomes
have distinct status codes; the response commutes with `LinkTimeout()`, which touches neither PKT nor
`pkt_resp`. -/
theorem linkCheckIsTheWatchdog : Obligations.LinkCheckIsTheWatchdog := by
  intro s htimers
  rcases hfire : tryFire 0 s with ⟨f, t⟩
  have htry : execTmrTryfire 0 s = .next (respond f.status f.overshoot t) :=
    execTmrTryfire_of_tryFire htimers hfire
  refine ⟨_, htry, ?_⟩
  cases f with
  | notFired =>
    have hstatus : (respond .notFired 0 t).status = 0x07 := rfl
    exact ⟨fun _ => execLinkCheck_of_notFired hfire,
      fun hfired => absurd (hstatus.symm.trans hfired) (by decide), .inr hstatus⟩
  | fired v =>
    have hstatus : (respond .fired v t).status = 0x06 := rfl
    exact ⟨fun hnot => absurd (hstatus.symm.trans hnot) (by decide),
      fun _ => execLinkCheck_of_fired hfire, .inl hstatus⟩

end Sys2Proof.Machine
end

section
/-! PROOFS. The encoder and the decoder are inverse to each other (30_encoding.md R65 to R68): an
assembled word selects its own row and gives back its operands, and a word that selects a row holds
nothing but the row's `OP` and the operands of its format. -/

namespace Sys2Proof

/-! ### Decoding what was encoded -/

theorem encode_selects (i : Instr) : Laws.SelectsRow.Statement i := by
  cases i with
  | fifoPush b => exact Laws.SelectsRow.fifoPush b
  | fifoPop => exact Laws.SelectsRow.fifoPop
  | fifoPeek k => exact Laws.SelectsRow.fifoPeek k
  | fifoAvail => exact Laws.SelectsRow.fifoAvail
  | fifoReset => exact Laws.SelectsRow.fifoReset
  | tmrInit t d => exact Laws.SelectsRow.tmrInit t d
  | tmrElapsed t => exact Laws.SelectsRow.tmrElapsed t
  | tmrTryfire t => exact Laws.SelectsRow.tmrTryfire t
  | tmrRestart t => exact Laws.SelectsRow.tmrRestart t
  | pktRd k => exact Laws.SelectsRow.pktRd k
  | pktWr k b => exact Laws.SelectsRow.pktWr k b
  | pktGetf f => exact Laws.SelectsRow.pktGetf f
  | pktSetf f d => exact Laws.SelectsRow.pktSetf f d
  | hdrCk => exact Laws.SelectsRow.hdrCk
  | payCk => exact Laws.SelectsRow.payCk
  | pktValidate => exact Laws.SelectsRow.pktValidate
  | pktFinalize => exact Laws.SelectsRow.pktFinalize
  | rsmStep => exact Laws.SelectsRow.rsmStep
  | rsmPoll => exact Laws.SelectsRow.rsmPoll
  | rsmReset => exact Laws.SelectsRow.rsmReset
  | rxPush b => exact Laws.SelectsRow.rxPush b
  | linkCheck => exact Laws.SelectsRow.linkCheck
  | linkSetest => exact Laws.SelectsRow.linkSetest
  | tick => exact Laws.SelectsRow.tick
  | csrRd c => exact Laws.SelectsRow.csrRd c
  | csrWr c d => exact Laws.SelectsRow.csrWr c d

/-- R67: the operands of a row are read from the fields that the encoder wrote them to. -/
theorem build_encode (i : Instr) : i.opcode.build (encode i).1 (encode i).2 = i := by
  cases i <;>
    simp [Instr.opcode, Opcode.build, encode, Instr.aOperand, Instr.immOperand, Instr.dataOperand]

theorem decode_of_selects {o : Opcode} {cmd : Word} (h : o.selects cmd = true) (data : Word) :
    decode cmd data = .ok (o.build cmd data) := by
  obtain ⟨hop, -⟩ := (o.selects_iff cmd).mp h
  simp [decode, (opcodeOf_eq_some_iff _ o).mpr hop, h]

/-- Settles O1: the encoded word selects its command's row (`encode_selects`), and the row reads the
operands back (`build_encode`). -/
theorem decodeInvertsEncode : Obligations.DecodeInvertsEncode := by
  intro i
  rw [decode_of_selects (encode_selects i), build_encode]

/-! ### Encoding what was decoded -/

/-- A word that decodes selects the row whose command it decodes to. -/
theorem decode_ok {cmd data : Word} {i : Instr} (h : decode cmd data = .ok i) :
    ∃ o : Opcode, o.selects cmd = true ∧ i = o.build cmd data := by
  unfold decode at h
  split at h
  · cases h
  · next o _ =>
    split at h
    · next hs => exact ⟨o, hs, (Except.ok.inj h).symm⟩
    · cases h

@[simp] theorem opcode_build (o : Opcode) (cmd data : Word) : (o.build cmd data).opcode = o := by
  cases o <;> rfl

/-- A mask with every bit of the `A` field set keeps the field. -/
@[simp] theorem and_fullA (a : Byte) : a &&& 0xFF#8 = a := BitVec.and_allOnes

/-- A mask with every bit of the `IMM` field set keeps the field. -/
@[simp] theorem and_fullImm (imm : Half) : imm &&& 0xFFFF#16 = imm := BitVec.and_allOnes

theorem aOperand_build (o : Opcode) (cmd data : Word)
    (h : aField cmd &&& reservedA o.format = 0) :
    (o.build cmd data).aOperand = aField cmd := by
  cases o <;> simp_all [Opcode.format, reservedA, Opcode.build, Instr.aOperand]

/-- Format B: with `IMM[15:8]` 0, the byte operand is the whole `IMM` field. -/
theorem immByte_setWidth {cmd : Word} (h : immField cmd &&& 0xFF00 = 0) :
    (immByte cmd).setWidth 16 = immField cmd := by
  apply BitVec.eq_of_getLsbD_eq
  intro n hn
  by_cases hlow : n < 8
  · simp [immByte, immField, hlow, hn]
  · have hmask : (0xFF00 : Half).getLsbD n = true := by
      interval_cases n <;> rfl
    have hbit : (immField cmd &&& 0xFF00).getLsbD n = false := by
      rw [h]
      exact BitVec.getLsbD_zero
    rw [BitVec.getLsbD_and, hmask, Bool.and_true] at hbit
    rw [hbit]
    simp [immByte, hlow]

theorem immOperand_build (o : Opcode) (cmd data : Word)
    (h : immField cmd &&& reservedImm o.format = 0) :
    (o.build cmd data).immOperand = immField cmd := by
  cases o <;>
    simp_all [Opcode.format, reservedImm, Opcode.build, Instr.immOperand, immByte_setWidth]

theorem dataOperand_build (o : Opcode) (cmd data : Word) (h : o.format.readsData = true) :
    (o.build cmd data).dataOperand = data := by
  revert h
  cases o <;> simp [Opcode.format, Format.readsData, Opcode.build, Instr.dataOperand]

/-- Settles O2: the word selects the row of its command (`decode_ok`), so its must-be-0 bits are 0
and each field is the operand built from it. -/
theorem decodedWordsAreTheEncoding : Obligations.DecodedWordsAreTheEncoding := by
  intro cmd data i hdec
  obtain ⟨o, hsel, rfl⟩ := decode_ok hdec
  obtain ⟨hop, hreserved⟩ := (o.selects_iff cmd).mp hsel
  obtain ⟨ha, himm⟩ := (and_reservedMask_eq_zero_iff cmd o.format).mp hreserved
  refine ⟨?_, fun hdata => dataOperand_build o cmd data (by simpa using hdata)⟩
  rw [encode, opcode_build, aOperand_build o cmd data ha, immOperand_build o cmd data himm, ← hop,
    cmdWord_fields]

/-! ### Words and lines written out -/

/-- Settles O6: each word is the encoding of its command, and decoding inverts the encoder. -/
theorem sampleWordsDecode : Obligations.SampleWordsDecode :=
  ⟨decodeInvertsEncode (.fifoPush 0xA5), decodeInvertsEncode (.fifoPeek 0xBEEF),
    decodeInvertsEncode (.tmrInit 3 0xDEADBEEF), decodeInvertsEncode (.pktWr 0x000F 0xAB),
    decodeInvertsEncode (.pktSetf 5 0x10), decodeInvertsEncode .rsmPoll, decodeInvertsEncode .tick,
    decodeInvertsEncode (.csrWr 9 0x44332211)⟩

/-- Settles O4: the assembler runs on the ten lines of the table. -/
theorem assemblerExamples : Obligations.AssemblerExamples := by
  unfold Obligations.AssemblerExamples
  decide

/-- `PKT_LOAD` writes its `i`-th byte at the offset `k + i`, reduced to the 16 bits of the operand.
-/
theorem loadFrom_getElem? (bs : List Byte) (k : Half) (i : Nat) :
    (Pseudo.expand.loadFrom k bs)[i]? = bs[i]?.map (.pktWr (k + BitVec.ofNat 16 i)) := by
  induction bs generalizing k i with
  | nil => simp [Pseudo.expand.loadFrom]
  | cons b bs ih =>
    cases i with
    | zero => simp [Pseudo.expand.loadFrom]
    | succ i =>
      have hoffset : k + 1 + BitVec.ofNat 16 i = k + BitVec.ofNat 16 (i + 1) := by
        rw [BitVec.ofNat_add, BitVec.add_assoc, BitVec.add_comm 1]
        rfl
      rw [Pseudo.expand.loadFrom, List.getElem?_cons_succ, List.getElem?_cons_succ, ih, hoffset]

theorem loadFrom_length (bs : List Byte) (k : Half) :
    (Pseudo.expand.loadFrom k bs).length = bs.length := by
  induction bs generalizing k with
  | nil => rfl
  | cons b bs ih => simp [Pseudo.expand.loadFrom, ih]

/-- Settles O5: only PKT_LOAD needs a thought, since its offsets are 16 bits wide; `Pseudo.wf` keeps
them from wrapping round. -/
theorem pseudoExpansions : Obligations.PseudoExpansions := by
  refine ⟨rfl, fun _ => rfl, fun _ => rfl, fun k bs hwf => ⟨loadFrom_length bs k, ?_⟩,
    fun bs i => List.getElem?_map⟩
  intro i b hb
  obtain ⟨-, hfit⟩ : 0 < bs.length ∧ k.toNat + bs.length ≤ 2 ^ 16 := by
    simpa [Pseudo.wf] using hwf
  obtain ⟨hi, -⟩ := List.getElem?_eq_some_iff.mp hb
  refine ⟨k + BitVec.ofNat 16 i, ?_, ?_⟩
  · rw [BitVec.toNat_add, BitVec.toNat_ofNat]
    omega
  · simp [Pseudo.expand, loadFrom_getElem?, hb]

end Sys2Proof
end

section
/-! PROOFS. One reassembler transition as a relation (44_reassembler.md R115 to R120): one rule per
row, with the conditions on the queue of held bytes, and what every transition keeps. The relation
is the model's `rsmTransition`, rule for rule (`rsmTransition_iff`). -/

namespace Sys2Proof.Machine

/-! ### The FIFO's read side -/

theorem fifoCount_sub_one_toNat {s : State} (h : s.fifoCount ≠ 0) :
    (s.fifoCount - 1).toNat + 1 = s.fifoCount.toNat := by
  have hpos : s.fifoCount.toNat ≠ 0 := fun h0 => h (BitVec.eq_of_toNat_eq h0)
  have hlt := s.fifoCount.isLt
  rw [BitVec.toNat_sub_of_le (by rw [BitVec.le_def]; exact Nat.pos_of_ne_zero hpos)]
  exact Nat.sub_add_cancel (Nat.pos_of_ne_zero hpos)

theorem fifoDrop_ok_iff (s t : State) :
    fifoDrop s = .ok t ↔ s.fifoCount ≠ 0 ∧
      t = { s with fifoRd := cursorNext s.cfg s.fifoRd, fifoCount := s.fifoCount - 1 } := by
  by_cases h : s.fifoCount = 0
  · simp [fifoDrop, h]
  · rw [fifoDrop, if_neg h]
    exact ⟨fun he => ⟨h, (Except.ok.inj he).symm⟩, fun ⟨_, he⟩ => congrArg Except.ok he.symm⟩

theorem junkOne_ok_iff (s t : State) :
    junkOne s = .ok t ↔ s.fifoCount ≠ 0 ∧
      t = { s with
        fifoRd := cursorNext s.cfg s.fifoRd
        fifoCount := s.fifoCount - 1
        junkCnt := s.junkCnt + 1 } := by
  by_cases h : s.fifoCount = 0
  · simp [junkOne, fifoDrop, h]
  · rw [junkOne, fifoDrop, if_neg h]
    exact ⟨fun he => ⟨h, (Except.ok.inj he).symm⟩, fun ⟨_, he⟩ => congrArg Except.ok he.symm⟩

theorem fifoDropMany_frame {n : Nat} {s t : State} (h : fifoDropMany n s = .ok t) :
    t = { s with fifoRd := t.fifoRd, fifoCount := t.fifoCount } := by
  induction n generalizing s with
  | zero =>
    cases h
    rfl
  | succ n ih =>
    rw [fifoDropMany] at h
    split at h
    · next u hu =>
      obtain ⟨-, rfl⟩ := (fifoDrop_ok_iff s u).mp hu
      have hframe := ih h
      exact hframe
    · cases h

theorem fifoDrop_fifoGood {s t : State} (hc : s.cfg.legal = true) (hg : FifoGood s)
    (h : fifoDrop s = .ok t) : FifoGood t := by
  obtain ⟨hne, -⟩ := (fifoDrop_ok_iff s t).mp h
  obtain ⟨u, hu, -, hgu, -⟩ := fifoDrop_spec hc hg hne
  rw [hu] at h
  cases h
  exact hgu

theorem fifoDropMany_fifoGood {n : Nat} {s t : State} (hc : s.cfg.legal = true) (hg : FifoGood s)
    (h : fifoDropMany n s = .ok t) : FifoGood t := by
  induction n generalizing s with
  | zero =>
    cases h
    exact hg
  | succ n ih =>
    rw [fifoDropMany] at h
    split at h
    · next u hu =>
      have hcfg : u.cfg = s.cfg := by rw [((fifoDrop_ok_iff s u).mp hu).2]
      exact ih (by rwa [hcfg]) (fifoDrop_fifoGood hc hg hu) h
    · cases h

/-! ### The queue after a discard -/

theorem fifoDrop_held {s t : State} (hinv : Inv s) (h : fifoDrop s = .ok t) :
    fifoHeld t = (fifoHeld s).tail := by
  obtain ⟨hne, -⟩ := (fifoDrop_ok_iff s t).mp h
  obtain ⟨u, hu, hheld, -⟩ := fifoDrop_spec hinv.legal hinv.fifo hne
  rw [h] at hu
  cases hu
  rw [hheld, List.tail_cons]

theorem junkOne_held {s t : State} (hinv : Inv s) (h : junkOne s = .ok t) :
    fifoHeld t = (fifoHeld s).tail := by
  obtain ⟨hne, -⟩ := (junkOne_ok_iff s t).mp h
  obtain ⟨u, hu, hheld, -⟩ := junkOne_tail hinv hne
  rw [h] at hu
  cases hu
  exact hheld

theorem fifoDropMany_held {n : Nat} {s t : State} (hc : s.cfg.legal = true) (hg : FifoGood s)
    (hn : n ≤ s.fifoCount.toNat) (h : fifoDropMany n s = .ok t) :
    fifoHeld t = (fifoHeld s).drop n := by
  obtain ⟨u, hu, hheld, -⟩ := fifoDropMany_spec hc hg hn
  rw [h] at hu
  cases hu
  exact hheld

/-! ### The rules -/

/-- The frame that PayloadPending examines: the held bytes up to the latched length. -/
abbrev latchedFrame (s : State) : List Byte := (fifoHeld s).take s.rsmLen.toNat

/-- What `MemWrite` leaves in PKT depends on PKT alone. -/
theorem pktPutMany_pkt_congr {s t : State} (h : s.pkt = t.pkt) (l : List Byte) (i : Nat) :
    (pktPutMany i l s).pkt = (pktPutMany i l t).pkt := by
  induction l generalizing i s t with
  | nil => exact h
  | cons b bs ih => exact ih (by rw [pktPut_pkt, pktPut_pkt, h]) (i + 1)

/-- The state with that frame written to PKT and the response flag cleared, the bytes still held
(R120). -/
def withLatchedFrame (s : State) : State :=
  { s with pkt := (pktPutMany 0 (latchedFrame s) s).pkt, pktResp := false }

/-- One transition from `s`: what it answers and the state after it. -/
inductive RsmMove (s : State) : RsmReply → State → Prop
  | waitSeeking (hs : s.rsmState = .seeking) (hfew : s.fifoCount = 0) : RsmMove s .notReady s
  | tag {bs : List Byte} (hs : s.rsmState = .seeking) (hheld : fifoHeld s = s.cfgRev :: bs) :
      RsmMove s .cont { s with rsmState := .headerPending }
  | junk {b : Byte} {bs : List Byte} {t : State} (hs : s.rsmState = .seeking)
      (hheld : fifoHeld s = b :: bs) (hb : b ≠ s.cfgRev) (ht : junkOne s = .ok t) :
      RsmMove s .cont t
  | waitHeader (hs : s.rsmState = .headerPending) (hfew : s.fifoCount.toNat < 15) :
      RsmMove s .notReady s
  | accept (hs : s.rsmState = .headerPending) (henough : 15 ≤ s.fifoCount.toNat)
      (hgood : HeaderGood s.cfg s.cfgRev (fifoHeld s)) :
      RsmMove s .cont { s with
        rsmLen := lengthOf s.cfg (fifoHeld s)
        rsmState := .payloadPending }
  | rejectHeader {t : State} (hs : s.rsmState = .headerPending) (henough : 15 ≤ s.fifoCount.toNat)
      (hbad : ¬ HeaderGood s.cfg s.cfgRev (fifoHeld s)) (ht : junkOne s = .ok t) :
      RsmMove s .cont (rsmClear { t with hdrfailCnt := t.hdrfailCnt + 1 })
  | waitPayload (hs : s.rsmState = .payloadPending) (hfew : s.fifoCount.toNat < s.rsmLen.toNat) :
      RsmMove s .notReady s
  | rejectPayload {t : State} (hs : s.rsmState = .payloadPending)
      (henough : s.rsmLen.toNat ≤ s.fifoCount.toNat) (hlegal : lengthLegal s.cfg s.rsmLen = true)
      (hbad : payloadPasses s.cfg s.rsmLen.toNat (latchedFrame s) = false)
      (ht : junkOne s = .ok t) :
      RsmMove s .cont (rsmClear { t with payfailCnt := t.payfailCnt + 1 })
  | deliver {t : State} (hs : s.rsmState = .payloadPending)
      (henough : s.rsmLen.toNat ≤ s.fifoCount.toNat) (hlegal : lengthLegal s.cfg s.rsmLen = true)
      (hgood : payloadPasses s.cfg s.rsmLen.toNat (latchedFrame s) = true)
      (ht : fifoDropMany s.rsmLen.toNat (withLatchedFrame s) = .ok t) :
      RsmMove s (.ready s.rsmLen) (rsmClear { t with frameCnt := t.frameCnt + 1 })

/-! ### The rules are the model's transition -/

/-- A FIFO that is not empty has a head. -/
theorem fifoHeld_of_ne_zero {s : State} (h : s.fifoCount ≠ 0) :
    ∃ bs, fifoHeld s = fifoByte s 0 :: bs := by
  obtain ⟨b, bs, hheld⟩ := List.exists_cons_of_ne_nil (mt (fifoHeld_nil_iff s).mp h)
  exact ⟨bs, by rw [fifoByte_zero_of_held hheld, hheld]⟩

theorem rsmSeek_move {s t : State} {r : RsmReply} (hs : s.rsmState = .seeking)
    (h : rsmSeek s = .ok (r, t)) : RsmMove s r t := by
  by_cases hne : s.fifoCount = 0
  · rw [rsmSeek_empty hne] at h
    cases h
    exact .waitSeeking hs hne
  · obtain ⟨bs, hheld⟩ := fifoHeld_of_ne_zero hne
    by_cases hb : fifoByte s 0 = s.cfgRev
    · rw [rsmSeek_tag hne hb] at h
      cases h
      exact .tag hs (hb ▸ hheld)
    · have hjunk := (junkOne_ok_iff s _).mpr ⟨hne, rfl⟩
      rw [rsmSeek_junk hne hb hjunk] at h
      cases h
      exact .junk hs hheld hb hjunk

theorem rsmHeader_move {s t : State} {r : RsmReply} (hs : s.rsmState = .headerPending)
    (h : rsmHeader s = .ok (r, t)) : RsmMove s r t := by
  by_cases hfew : s.fifoCount.toNat < 15
  · rw [rsmHeader_wait hfew] at h
    cases h
    exact .waitHeader hs hfew
  · have henough : 15 ≤ s.fifoCount.toNat := Nat.not_lt.mp hfew
    by_cases hgood : HeaderGood s.cfg s.cfgRev (fifoHeld s)
    · rw [rsmHeader_accept henough ((headerAccepted_take_iff _ _ _).mpr hgood),
        frameLength_take] at h
      cases h
      exact .accept hs henough hgood
    · have hrefused := Bool.eq_false_iff.mpr (mt (headerAccepted_take_iff _ _ _).mp hgood)
      have hjunk := (junkOne_ok_iff s _).mpr ⟨fifoCount_ne_zero_of_le (by decide) henough, rfl⟩
      rw [rsmHeader_reject henough hrefused hjunk] at h
      cases h
      exact .rejectHeader hs henough hgood hjunk

theorem lengthLegal_pos {c : Config} {dl : Half} (h : lengthLegal c dl = true) : 0 < dl.toNat :=
  Nat.lt_of_lt_of_le (by decide) ((lengthLegal_iff c dl).mp h).1

/-- PayloadPending at a frame that passes writes it and drops its bytes (R120). -/
theorem rsmPayload_pass {s : State} (h : s.rsmLen.toNat ≤ s.fifoCount.toNat)
    (hl : lengthLegal s.cfg s.rsmLen = true)
    (hp : payloadPasses s.cfg s.rsmLen.toNat (latchedFrame s) = true) :
    rsmPayload s = (fifoDropMany s.rsmLen.toNat (withLatchedFrame s)).map
      (fun t => (.ready s.rsmLen, rsmClear { t with frameCnt := t.frameCnt + 1 })) := by
  have hwrite : ({ pktPutMany 0 (latchedFrame s) s with pktResp := false } : State) =
      withLatchedFrame s := by
    rw [pktPutMany_frame]
    rfl
  rw [rsmPayload, if_neg (Nat.not_lt.mpr h), fifoPeekMany_held h]
  simp only [hl, Bool.true_eq_false, if_false, hp, if_true, rsmDeliver, hwrite]
  cases fifoDropMany s.rsmLen.toNat (withLatchedFrame s) <;> rfl

theorem rsmPayload_move {s t : State} {r : RsmReply} (hs : s.rsmState = .payloadPending)
    (h : rsmPayload s = .ok (r, t)) : RsmMove s r t := by
  by_cases hfew : s.fifoCount.toNat < s.rsmLen.toNat
  · rw [rsmPayload_wait hfew] at h
    cases h
    exact .waitPayload hs hfew
  · have henough : s.rsmLen.toNat ≤ s.fifoCount.toNat := Nat.not_lt.mp hfew
    cases hlegal : lengthLegal s.cfg s.rsmLen with
    | false =>
      rw [rsmPayload, if_neg hfew, if_pos hlegal] at h
      cases h
    | true =>
      cases hpass : payloadPasses s.cfg s.rsmLen.toNat (latchedFrame s) with
      | false =>
        have hjunk := (junkOne_ok_iff s _).mpr
          ⟨fifoCount_ne_zero_of_le (lengthLegal_pos hlegal) henough, rfl⟩
        rw [rsmPayload_reject henough hlegal hpass hjunk] at h
        cases h
        exact .rejectPayload hs henough hlegal hpass hjunk
      | true =>
        rw [rsmPayload_pass henough hlegal hpass] at h
        cases hdrop : fifoDropMany s.rsmLen.toNat (withLatchedFrame s) with
        | error f =>
          rw [hdrop] at h
          cases h
        | ok u =>
          rw [hdrop] at h
          cases h
          exact .deliver hs henough hlegal hpass hdrop

theorem RsmMove.transition {s t : State} {r : RsmReply} (h : RsmMove s r t) :
    rsmTransition s = .ok (r, t) := by
  cases h with
  | waitSeeking hs hfew => rw [rsmTransition_seeking hs, rsmSeek_empty hfew]
  | tag hs hheld =>
    rw [rsmTransition_seeking hs,
      rsmSeek_tag (fifoCount_ne_zero_of_held hheld) (fifoByte_zero_of_held hheld)]
  | junk hs hheld hb ht =>
    rw [rsmTransition_seeking hs, rsmSeek_junk (fifoCount_ne_zero_of_held hheld)
      (by rwa [fifoByte_zero_of_held hheld]) ht]
  | waitHeader hs hfew => rw [rsmTransition_headerPending hs, rsmHeader_wait hfew]
  | accept hs henough hgood =>
    rw [rsmTransition_headerPending hs,
      rsmHeader_accept henough ((headerAccepted_take_iff _ _ _).mpr hgood), frameLength_take]
  | rejectHeader hs henough hbad ht =>
    rw [rsmTransition_headerPending hs, rsmHeader_reject henough
      (Bool.eq_false_iff.mpr (mt (headerAccepted_take_iff _ _ _).mp hbad)) ht]
  | waitPayload hs hfew => rw [rsmTransition_payloadPending hs, rsmPayload_wait hfew]
  | rejectPayload hs henough hlegal hbad ht =>
    rw [rsmTransition_payloadPending hs, rsmPayload_reject henough hlegal hbad ht]
  | deliver hs henough hlegal hgood ht =>
    rw [rsmTransition_payloadPending hs, rsmPayload_pass henough hlegal hgood, ht]
    rfl

/-- The rules are exactly the transitions of the model that do not fault. -/
theorem rsmTransition_iff (s : State) (r : RsmReply) (t : State) :
    rsmTransition s = .ok (r, t) ↔ RsmMove s r t := by
  refine ⟨fun h => ?_, RsmMove.transition⟩
  cases hs : s.rsmState with
  | seeking => exact rsmSeek_move hs (rsmTransition_seeking hs ▸ h)
  | headerPending => exact rsmHeader_move hs (rsmTransition_headerPending hs ▸ h)
  | payloadPending => exact rsmPayload_move hs (rsmTransition_payloadPending hs ▸ h)
  | ready =>
    rw [rsmTransition, hs] at h
    cases h

/-! ### What every transition keeps -/

/-- What a transition may change: the FIFO's read side, PKT, the response flag, the reassembler and
its four counters. -/
abbrev RsmFrame (s t : State) : Prop :=
  t = { s with
    fifoRd := t.fifoRd
    fifoCount := t.fifoCount
    pkt := t.pkt
    pktResp := t.pktResp
    rsmState := t.rsmState
    rsmLen := t.rsmLen
    junkCnt := t.junkCnt
    hdrfailCnt := t.hdrfailCnt
    payfailCnt := t.payfailCnt
    frameCnt := t.frameCnt }

theorem RsmFrame.trans {s t u : State} (h : RsmFrame s t) (h' : RsmFrame t u) : RsmFrame s u := by
  rw [RsmFrame, h', h]

/-- A wait changes nothing. -/
theorem RsmMove.notReady_eq {s t : State} (h : RsmMove s .notReady t) : t = s := by
  cases h <;> rfl

theorem RsmMove.frame {s t : State} {r : RsmReply} (h : RsmMove s r t) : RsmFrame s t := by
  cases h with
  | waitSeeking | waitHeader | waitPayload => rfl
  | tag | accept => rfl
  | junk _ _ _ ht =>
    obtain ⟨-, rfl⟩ := (junkOne_ok_iff _ _).mp ht
    rfl
  | rejectHeader _ _ _ ht | rejectPayload _ _ _ _ ht =>
    obtain ⟨-, rfl⟩ := (junkOne_ok_iff _ _).mp ht
    rfl
  | deliver _ _ _ _ ht =>
    rw [RsmFrame, fifoDropMany_frame ht]
    rfl

theorem junkOne_fifoGood {s t : State} (hc : s.cfg.legal = true) (hg : FifoGood s)
    (h : junkOne s = .ok t) : FifoGood t := by
  obtain ⟨hne, -⟩ := (junkOne_ok_iff s t).mp h
  obtain ⟨u, hu, -, hgu, -⟩ := junkOne_spec hc hg hne
  rw [hu] at h
  cases h
  exact hgu

theorem RsmMove.fifoGood {s t : State} {r : RsmReply} (hc : s.cfg.legal = true) (hg : FifoGood s)
    (h : RsmMove s r t) : FifoGood t := by
  cases h with
  | waitSeeking | waitHeader | waitPayload => exact hg
  | tag | accept => exact hg
  | junk _ _ _ ht => exact junkOne_fifoGood hc hg ht
  | rejectHeader _ _ _ ht | rejectPayload _ _ _ _ ht =>
    have hgood := junkOne_fifoGood hc hg ht
    exact hgood
  | deliver _ _ _ _ ht =>
    have hgood := fifoDropMany_fifoGood (s := withLatchedFrame s) hc hg ht
    exact hgood

/-- The frame that PayloadPending examines is as long as the latched length says. -/
theorem latchedFrame_length {s : State} (h : s.rsmLen.toNat ≤ s.fifoCount.toNat) :
    (latchedFrame s).length = s.rsmLen.toNat := by
  rw [List.length_take, fifoHeld_length, Nat.min_eq_left h]

theorem RsmMove.storageGood {s t : State} {r : RsmReply} (hg : StorageGood s)
    (h : RsmMove s r t) : StorageGood t := by
  cases h with
  | waitSeeking | waitHeader | waitPayload => exact hg
  | tag | accept => exact hg
  | junk _ _ _ ht =>
    obtain ⟨-, rfl⟩ := (junkOne_ok_iff _ _).mp ht
    exact hg
  | rejectHeader _ _ _ ht | rejectPayload _ _ _ _ ht =>
    obtain ⟨-, rfl⟩ := (junkOne_ok_iff _ _).mp ht
    exact hg
  | deliver _ henough hlegal _ ht =>
    obtain ⟨hmem, hbelow, hpkt, hpktBelow⟩ := hg
    have hfits : 0 + (latchedFrame s).length ≤ s.cfg.maxFrame := by
      rw [latchedFrame_length henough, Nat.zero_add]
      exact ((lengthLegal_iff _ _).mp hlegal).2
    rw [fifoDropMany_frame ht]
    exact ⟨hmem, hbelow, pktPutMany_wf hpkt _ _, pktPutMany_below hpktBelow _ _ hfits⟩

theorem RsmMove.rsmGood {s t : State} {r : RsmReply} (hg : RsmGood s) (h : RsmMove s r t) :
    RsmGood t := by
  obtain ⟨hready, hlatched, hclear⟩ := hg
  cases h with
  | waitSeeking | waitHeader | waitPayload => exact ⟨hready, hlatched, hclear⟩
  | tag hs => exact ⟨nofun, nofun, fun _ => hclear (by rw [hs]; nofun)⟩
  | accept _ _ hgood =>
    obtain ⟨-, -, hlegal⟩ := hgood
    exact ⟨nofun, fun _ => (lengthLegal_iff _ _).mpr hlegal, fun hne => absurd rfl hne⟩
  | junk _ _ _ ht =>
    obtain ⟨-, rfl⟩ := (junkOne_ok_iff _ _).mp ht
    exact ⟨hready, hlatched, hclear⟩
  | rejectHeader | rejectPayload | deliver => exact ⟨nofun, nofun, fun _ => rfl⟩

theorem RsmMove.inv {s t : State} {r : RsmReply} (hinv : Inv s) (h : RsmMove s r t) : Inv t where
  legal := by rw [h.frame]; exact hinv.legal
  fifo := h.fifoGood hinv.legal hinv.fifo
  storage := h.storageGood hinv.storage
  rsm := h.rsmGood hinv.rsm
  timers := by rw [h.frame]; exact hinv.timers
  status := by rw [h.frame]; exact hinv.status

/-- From a good state there is always a transition. -/
theorem RsmMove.progress {s : State} (hinv : Inv s) : ∃ r t, RsmMove s r t := by
  obtain ⟨hready, hlatched, -⟩ := hinv.rsm
  cases hs : s.rsmState with
  | ready => exact absurd hs hready
  | seeking =>
    by_cases hne : s.fifoCount = 0
    · exact ⟨_, _, .waitSeeking hs hne⟩
    · obtain ⟨bs, hheld⟩ := fifoHeld_of_ne_zero hne
      by_cases hb : fifoByte s 0 = s.cfgRev
      · exact ⟨_, _, .tag hs (hb ▸ hheld)⟩
      · exact ⟨_, _, .junk hs hheld hb ((junkOne_ok_iff s _).mpr ⟨hne, rfl⟩)⟩
  | headerPending =>
    by_cases hfew : s.fifoCount.toNat < 15
    · exact ⟨_, _, .waitHeader hs hfew⟩
    · have henough := Nat.not_lt.mp hfew
      have hne := fifoCount_ne_zero_of_le (by decide) henough
      by_cases hgood : HeaderGood s.cfg s.cfgRev (fifoHeld s)
      · exact ⟨_, _, .accept hs henough hgood⟩
      · exact ⟨_, _, .rejectHeader hs henough hgood ((junkOne_ok_iff s _).mpr ⟨hne, rfl⟩)⟩
  | payloadPending =>
    have hlegal := hlatched hs
    by_cases hfew : s.fifoCount.toNat < s.rsmLen.toNat
    · exact ⟨_, _, .waitPayload hs hfew⟩
    · have henough := Nat.not_lt.mp hfew
      have hne := fifoCount_ne_zero_of_le (lengthLegal_pos hlegal) henough
      cases hpass : payloadPasses s.cfg s.rsmLen.toNat (latchedFrame s) with
      | false =>
        exact ⟨_, _, .rejectPayload hs henough hlegal hpass ((junkOne_ok_iff s _).mpr ⟨hne, rfl⟩)⟩
      | true =>
        obtain ⟨t, ht, -⟩ := rsmPayload_deliver hinv.legal hinv.fifo henough hlegal hpass
        exact ⟨_, t, rsmPayload_move hs ht⟩

end Sys2Proof.Machine
end

section
/-! PROOFS. The poll as a relation (44_reassembler.md R122): transitions that answer CONTINUE, and
then one that does not. A measure that every CONTINUE lowers shows that the bound of R122 is never
reached, so the relation is exactly the model's loop (`rsmRun_iff`). -/

namespace Sys2Proof.Machine

/-! ### The measure -/

/-- The transitions that may follow without a byte being discarded. -/
def RsmState.stepsLeft : RsmState → Nat
  | .seeking => 2
  | .headerPending => 1
  | .payloadPending => 0
  | .ready => 0

/-- At most three transitions per held byte are still to come. -/
def rsmMeasure (s : State) : Nat := 3 * s.fifoCount.toNat + s.rsmState.stepsLeft

theorem rsmMeasure_lt_pollBound (s : State) : rsmMeasure s < pollBound s := by
  have hsteps : s.rsmState.stepsLeft ≤ 2 := by cases s.rsmState <;> decide
  rw [rsmMeasure, pollBound]
  omega

theorem rsmMeasure_junkOne {s t : State} (h : junkOne s = .ok t) :
    3 * t.fifoCount.toNat + 3 = 3 * s.fifoCount.toNat := by
  obtain ⟨hne, rfl⟩ := (junkOne_ok_iff s t).mp h
  have hpred := fifoCount_sub_one_toNat hne
  simp only
  omega

/-- A CONTINUE discards a byte, or moves on towards the payload. -/
theorem RsmMove.measure_lt {s t : State} (h : RsmMove s .cont t) : rsmMeasure t < rsmMeasure s := by
  cases h with
  | tag hs => simp [rsmMeasure, hs, RsmState.stepsLeft]
  | accept hs => simp [rsmMeasure, hs, RsmState.stepsLeft]
  | junk hs _ _ ht =>
    have hcount := rsmMeasure_junkOne ht
    have hstate : t.rsmState = .seeking := by rw [((junkOne_ok_iff s t).mp ht).2]; exact hs
    simp only [rsmMeasure, hs, hstate]
    omega
  | rejectHeader hs _ _ ht | rejectPayload hs _ _ _ ht =>
    have hcount := rsmMeasure_junkOne ht
    simp only [rsmMeasure, hs, rsmClear_fifoCount, rsmClear_rsmState, RsmState.stepsLeft]
    omega

/-! ### The loop -/

/-- A poll from `s`: its reply and the state it ends in. -/
inductive RsmPoll : State → RsmReply → State → Prop
  | stop {s t : State} {r : RsmReply} (h : RsmMove s r t) (hr : r ≠ .cont) : RsmPoll s r t
  | step {s u t : State} {r : RsmReply} (h : RsmMove s .cont u) (hp : RsmPoll u r t) : RsmPoll s r t

theorem rsmLoop_succ_cont {s u : State} (h : RsmMove s .cont u) (n : Nat) :
    rsmLoop (n + 1) s = rsmLoop n u := by
  rw [rsmLoop, h.transition]

theorem rsmLoop_succ_stop {s t : State} {r : RsmReply} (h : RsmMove s r t) (hr : r ≠ .cont)
    (n : Nat) : rsmLoop (n + 1) s = .ok (r, t) := by
  rw [rsmLoop, h.transition]
  cases r with
  | cont => exact absurd rfl hr
  | notReady | ready => rfl

/-- Fuel above the measure is enough: more makes no difference. -/
theorem rsmLoop_eq_of_measure_lt {n m : Nat} {s : State} (hn : rsmMeasure s < n)
    (hm : rsmMeasure s < m) : rsmLoop n s = rsmLoop m s := by
  induction n generalizing m s with
  | zero => exact absurd hn (Nat.not_lt_zero _)
  | succ n ih =>
    obtain ⟨m, rfl⟩ := Nat.exists_eq_add_one_of_ne_zero (Nat.ne_zero_of_lt hm)
    cases hmove : rsmTransition s with
    | error f => rw [rsmLoop, rsmLoop, hmove]
    | ok p =>
      obtain ⟨r, t⟩ := p
      have hrule := (rsmTransition_iff s r t).mp hmove
      by_cases hr : r = .cont
      · subst hr
        have hlt := hrule.measure_lt
        rw [rsmLoop_succ_cont hrule, rsmLoop_succ_cont hrule]
        exact ih (by omega) (by omega)
      · rw [rsmLoop_succ_stop hrule hr, rsmLoop_succ_stop hrule hr]

theorem rsmLoop_eq_rsmRun {n : Nat} {s : State} (hn : rsmMeasure s < n) : rsmLoop n s = rsmRun s :=
  rsmLoop_eq_of_measure_lt hn (rsmMeasure_lt_pollBound s)

theorem rsmRun_of_cont {s t : State} (h : RsmMove s .cont t) : rsmRun s = rsmRun t := by
  have hlt := h.measure_lt
  rw [← rsmLoop_eq_rsmRun (Nat.lt_succ_self (rsmMeasure s)), rsmLoop_succ_cont h,
    rsmLoop_eq_rsmRun hlt]

theorem rsmRun_of_stop {s t : State} {r : RsmReply} (h : RsmMove s r t) (hr : r ≠ .cont) :
    rsmRun s = .ok (r, t) := by
  rw [← rsmLoop_eq_rsmRun (Nat.lt_succ_self (rsmMeasure s)), rsmLoop_succ_stop h hr]

theorem rsmLoop_poll {n : Nat} {s t : State} {r : RsmReply} (h : rsmLoop n s = .ok (r, t)) :
    RsmPoll s r t := by
  induction n generalizing s with
  | zero => cases h
  | succ n ih =>
    cases hmove : rsmTransition s with
    | error f =>
      rw [rsmLoop, hmove] at h
      cases h
    | ok p =>
      obtain ⟨r', u⟩ := p
      have hrule := (rsmTransition_iff s r' u).mp hmove
      by_cases hr : r' = .cont
      · subst hr
        rw [rsmLoop_succ_cont hrule] at h
        exact .step hrule (ih h)
      · rw [rsmLoop_succ_stop hrule hr] at h
        cases h
        exact .stop hrule hr

theorem RsmPoll.run {s t : State} {r : RsmReply} (h : RsmPoll s r t) : rsmRun s = .ok (r, t) := by
  induction h with
  | stop h hr => exact rsmRun_of_stop h hr
  | step h _ ih => rw [rsmRun_of_cont h, ih]

/-- The relation is exactly the model's loop where that does not fault. -/
theorem rsmRun_iff (s : State) (r : RsmReply) (t : State) :
    rsmRun s = .ok (r, t) ↔ RsmPoll s r t := ⟨rsmLoop_poll, RsmPoll.run⟩

/-! ### What every poll keeps -/

theorem RsmPoll.frame {s t : State} {r : RsmReply} (h : RsmPoll s r t) : RsmFrame s t := by
  induction h with
  | stop h _ => exact h.frame
  | step h _ ih => exact h.frame.trans ih

theorem RsmPoll.reply_ne_cont {s t : State} {r : RsmReply} (h : RsmPoll s r t) : r ≠ .cont := by
  induction h with
  | stop _ hr => exact hr
  | step _ _ ih => exact ih

theorem RsmPoll.fifoGood {s t : State} {r : RsmReply} (hc : s.cfg.legal = true) (hg : FifoGood s)
    (h : RsmPoll s r t) : FifoGood t := by
  induction h with
  | stop h _ => exact h.fifoGood hc hg
  | step h _ ih => exact ih (by rw [h.frame]; exact hc) (h.fifoGood hc hg)

theorem RsmPoll.inv {s t : State} {r : RsmReply} (hinv : Inv s) (h : RsmPoll s r t) : Inv t := by
  induction h with
  | stop h _ => exact h.inv hinv
  | step h _ ih => exact ih (h.inv hinv)

/-- From a good state every poll ends. -/
theorem RsmPoll.progress {s : State} (hinv : Inv s) : ∃ r t, RsmPoll s r t := by
  induction hn : rsmMeasure s using Nat.strong_induction_on generalizing s with
  | _ n ih =>
    obtain ⟨r, t, hmove⟩ := RsmMove.progress hinv
    by_cases hr : r = .cont
    · subst hr
      obtain ⟨r, u, hpoll⟩ := ih _ (hn ▸ hmove.measure_lt) (hmove.inv hinv) rfl
      exact ⟨r, u, .step hmove hpoll⟩
    · exact ⟨r, t, .stop hmove hr⟩

/-! ### The response registers take no part -/

theorem latchedFrame_respond (c : StatusCode) (w : Word) (s : State) :
    latchedFrame (respond c w s) = latchedFrame s := by
  rw [latchedFrame, fifoHeld_respond, respond_rsmLen]

theorem junkOne_respond {s t : State} (c : StatusCode) (w : Word) (h : junkOne s = .ok t) :
    junkOne (respond c w s) = .ok (respond c w t) := by
  obtain ⟨hne, rfl⟩ := (junkOne_ok_iff s t).mp h
  exact (junkOne_ok_iff _ _).mpr ⟨hne, rfl⟩

theorem fifoDropMany_respond {n : Nat} {s t : State} (c : StatusCode) (w : Word)
    (h : fifoDropMany n s = .ok t) : fifoDropMany n (respond c w s) = .ok (respond c w t) := by
  induction n generalizing s with
  | zero =>
    cases h
    rfl
  | succ n ih =>
    rw [fifoDropMany] at h ⊢
    split at h
    · next u hu =>
      obtain ⟨hne, rfl⟩ := (fifoDrop_ok_iff s u).mp hu
      have hdrop := (fifoDrop_ok_iff (respond c w s) _).mpr ⟨hne, rfl⟩
      rw [hdrop]
      exact ih h
    · cases h

theorem withLatchedFrame_respond (c : StatusCode) (w : Word) (s : State) :
    withLatchedFrame (respond c w s) = respond c w (withLatchedFrame s) := by
  rw [withLatchedFrame, latchedFrame_respond, pktPutMany_pkt_congr (respond_pkt c w s)]
  rfl

theorem RsmMove.respond {s t : State} {r : RsmReply} (c : StatusCode) (w : Word)
    (h : RsmMove s r t) : RsmMove (respond c w s) r (respond c w t) := by
  have hheld := fifoHeld_respond c w s
  have hlatched := latchedFrame_respond c w s
  cases h with
  | waitSeeking hs hfew => exact .waitSeeking hs hfew
  | tag hs h => exact .tag (s := Machine.respond c w s) hs (hheld.trans h)
  | junk hs h hb ht => exact .junk hs (hheld.trans h) hb (junkOne_respond c w ht)
  | waitHeader hs hfew => exact .waitHeader hs hfew
  | accept hs henough hgood =>
    have hmove := RsmMove.accept (s := Machine.respond c w s) hs henough (by rw [hheld]; exact hgood)
    rw [hheld] at hmove
    exact hmove
  | rejectHeader hs henough hbad ht =>
    exact .rejectHeader (s := Machine.respond c w s) hs henough (by rw [hheld]; exact hbad)
      (junkOne_respond c w ht)
  | waitPayload hs hfew => exact .waitPayload hs hfew
  | rejectPayload hs henough hlegal hbad ht =>
    exact .rejectPayload (s := Machine.respond c w s) hs henough hlegal (by rw [hlatched]; exact hbad)
      (junkOne_respond c w ht)
  | deliver hs henough hlegal hgood ht =>
    exact .deliver (s := Machine.respond c w s) hs henough hlegal (by rw [hlatched]; exact hgood)
      (by rw [withLatchedFrame_respond]; exact fifoDropMany_respond c w ht)

theorem RsmPoll.respond {s t : State} {r : RsmReply} (c : StatusCode) (w : Word)
    (h : RsmPoll s r t) : RsmPoll (respond c w s) r (respond c w t) := by
  induction h with
  | stop h hr => exact .stop (h.respond c w) hr
  | step h _ ih => exact .step (h.respond c w) ih

/-! ### RSM_STEP and RSM_POLL -/

/-- The response of a reassembler command (R121, R122). -/
def rsmAnswer (r : RsmReply) (t : State) : State :=
  respond r.status ((rsmLow r t).setWidth 32) t

theorem rsmAnswer_cont_iff (r : RsmReply) (t : State) :
    (rsmAnswer r t).status = 0x05 ↔ r = .cont := by
  cases r <;> simp [rsmAnswer, RsmReply.status, StatusCode.code]

theorem rsmAnswer_notReady_iff (r : RsmReply) (t : State) :
    (rsmAnswer r t).status = 0x03 ↔ r = .notReady := by
  cases r <;> simp [rsmAnswer, RsmReply.status, StatusCode.code]

theorem rsmAnswer_ready_iff (r : RsmReply) (t : State) :
    (rsmAnswer r t).status = 0x04 ↔ ∃ dl, r = .ready dl := by
  cases r <;> simp [rsmAnswer, RsmReply.status, StatusCode.code]

theorem execRsmStep_iff (s u : State) :
    execRsmStep s = .next u ↔ ∃ r t, RsmMove s r t ∧ u = rsmAnswer r t := by
  constructor
  · intro h
    rw [execRsmStep] at h
    split at h
    · cases h
    · next r t htrans => exact ⟨r, t, (rsmTransition_iff s r t).mp htrans, by cases h; rfl⟩
  · rintro ⟨r, t, hmove, rfl⟩
    rw [execRsmStep, hmove.transition]
    rfl

theorem execRsmPoll_iff (s u : State) :
    execRsmPoll s = .next u ↔ ∃ r t, RsmPoll s r t ∧ u = rsmAnswer r t := by
  constructor
  · intro h
    rw [execRsmPoll] at h
    split at h
    · cases h
    · next r t hrun => exact ⟨r, t, (rsmRun_iff s r t).mp hrun, by cases h; rfl⟩
  · rintro ⟨r, t, hpoll, rfl⟩
    rw [execRsmPoll, hpoll.run]
    rfl

theorem RsmPoll.exec {s t : State} {r : RsmReply} (h : RsmPoll s r t) :
    execRsmPoll s = .next (rsmAnswer r t) := (execRsmPoll_iff s _).mpr ⟨r, t, h, rfl⟩

/-- A response written before a poll is overwritten by the poll's own. -/
theorem rsmAnswer_respond (r : RsmReply) (c : StatusCode) (w : Word) (t : State) :
    rsmAnswer r (respond c w t) = rsmAnswer r t := by
  cases r <;> rfl

theorem execRsmPoll_respond {s t : State} {r : RsmReply} (c : StatusCode) (w : Word)
    (h : RsmPoll s r t) : execRsmPoll (respond c w s) = .next (rsmAnswer r t) := by
  rw [(h.respond c w).exec, rsmAnswer_respond]

/-- Settles O45: RSM_STEP makes the first transition of the loop; where it answers CONTINUE the rest
of the loop is a poll, which the response of the step does not touch (`execRsmPoll_respond`). -/
theorem pollIsTheLoopOfSteps : Obligations.PollIsTheLoopOfSteps := by
  intro s u hinv hstep
  obtain ⟨r, t, hmove, rfl⟩ := (execRsmStep_iff s u).mp hstep
  simp only [rsmAnswer_cont_iff, rsmAnswer_notReady_iff, rsmAnswer_ready_iff]
  have hends (hr : r ≠ .cont) : exec .rsmPoll s = .next (rsmAnswer r t) :=
    (RsmPoll.stop hmove hr).exec
  refine ⟨?_, fun hr => hends (by rw [hr]; nofun), fun ⟨dl, hr⟩ => hends (by rw [hr]; nofun)⟩
  rintro rfl
  obtain ⟨r, v, hpoll⟩ := RsmPoll.progress (hmove.inv hinv)
  calc exec .rsmPoll s
    _ = .next (rsmAnswer r v) := (RsmPoll.step hmove hpoll).exec
    _ = exec .rsmPoll (rsmAnswer .cont t) := (execRsmPoll_respond _ _ hpoll).symm

/-- Settles O46: a poll ends (`RsmPoll.progress`), not on CONTINUE, with the frame of its
transitions; the measure is below the bound, so more fuel changes nothing. -/
theorem pollEndsWithinItsBound : Obligations.PollEndsWithinItsBound := by
  intro s hinv
  refine ⟨?_, fun n hn => rsmLoop_eq_rsmRun ((rsmMeasure_lt_pollBound s).trans_le hn)⟩
  obtain ⟨r, t, hpoll⟩ := RsmPoll.progress hinv
  refine ⟨rsmAnswer r t, hpoll.exec, ?_, ?_⟩
  · cases r with
    | cont => exact absurd rfl hpoll.reply_ne_cont
    | notReady => exact .inl rfl
    | ready dl => exact .inr rfl
  · rw [rsmAnswer, hpoll.frame]
    rfl

end Sys2Proof.Machine
end

section
/-! PROOFS. What a command that completes can do, said once for every command: it raises an error,
it answers without changing anything, or it makes the one change that its meaning names. The rules
of the whole machine follow from that case analysis. -/

namespace Sys2Proof.Machine

/-! ### The changes -/

/-- The frame in PKT, stamped and with both checks recomputed (43_frame.md R108). -/
def finalized (s : State) : State :=
  stampPayloadCk (pktDlen s) (stampHeaderCk (stampFrame s))

/-- The change that a command makes to the block, and the code it answers with. -/
inductive Effect (s : State) : Instr → StatusCode → State → Prop
  | push {b : Byte} {c : StatusCode} {t : State} (h : fifoPut b s = (c, t)) :
      Effect s (.fifoPush b) c t
  | pop {t : State} (h : fifoDrop s = .ok t) : Effect s .fifoPop .ok t
  | clear : Effect s .fifoReset .ok (fifoClear s)
  | setTimer (t : Byte) (d : Word) :
      Effect s (.tmrInit t d) .ok (setTimer t.toNat { last := s.now, intv := d } s)
  | tryFire (t : Byte) :
      Effect s (.tmrTryfire t) (tryFire t.toNat s).1.status (tryFire t.toNat s).2
  | restart (t : Byte) : Effect s (.tmrRestart t) .ok (setLast t.toNat s.now s)
  | writeByte {k : Half} {b : Byte} (h : offsetInRange s k = true) :
      Effect s (.pktWr k b) .ok (pktPut k.toNat b s)
  | writeField {f : Byte} {d : Word} {g : Field} (h : fieldOf f = some g)
      (hlegal : g = .pck → pktLegal s = true) : Effect s (.pktSetf f d) .ok (fieldWrite g d s)
  | finalize (h : pktLegal s = true) : Effect s .pktFinalize .ok (finalized s)
  | step {r : RsmReply} {t : State} (h : RsmMove s r t) : Effect s .rsmStep r.status t
  | poll {r : RsmReply} {t : State} (h : RsmPoll s r t) : Effect s .rsmPoll r.status t
  | resetRsm : Effect s .rsmReset .ok (rsmClear s)
  | receive (b : Byte) : Effect s (.rxPush b) (receiveByte b s).1 (receiveByte b s).2
  | check : Effect s .linkCheck (checkTimeout s).1.status (checkTimeout s).2
  | establish : Effect s .linkSetest .ok { s with linkEst := true }
  | tick {r : RsmReply} {t : State} (h : RsmPoll (checkTimeout s).2 r t) : Effect s .tick r.status t
  | writeCsr {c : Byte} {d : Word} {r : Csr} (h : csrOf s.cfg c = some r) :
      Effect s (.csrWr c d) .ok (csrWrite r d s)

/-- How a command completes. -/
inductive Completes (i : Instr) (s : State) : State → Prop
  | raised (c : StatusCode) (hp : (producedBy i.opcode).contains c.code = true) :
      Completes i s (raiseErr c s)
  | answered (c : StatusCode) (w : Word) (hc : c.isError = false)
      (hp : (producedBy i.opcode).contains c.code = true) : Completes i s (respond c w s)
  | changed {c : StatusCode} {u : State} (w : Word) (h : Effect s i c u) :
      Completes i s (respond c w u)

theorem validateCode_cases (s : State) :
    validateCode s ∈ ([.pktOk, .badRev, .badHck, .badLen, .badPck] : List StatusCode) := by
  rw [validateCode]
  repeat' split
  all_goals simp

/-! ### Every command completes in one of these ways -/

theorem execFifoPop_completes {s t : State} (h : execFifoPop s = .next t) :
    Completes .fifoPop s t := by
  rw [execFifoPop] at h
  split at h
  · cases h
    exact .answered .empty 0 rfl rfl
  · split at h
    · next u _ hdrop =>
      cases h
      exact .changed _ (.pop hdrop)
    · cases h
    · cases h

theorem execFifoPeek_completes {k : Half} {s t : State} (h : execFifoPeek k s = .next t) :
    Completes (.fifoPeek k) s t := by
  rw [execFifoPeek] at h
  split at h
  · split at h
    · cases h
      exact .answered .ok _ rfl rfl
    · cases h
  · cases h
    exact .answered .empty 0 rfl rfl

theorem execPktGetf_completes {f : Byte} {s t : State} (h : execPktGetf f s = .next t) :
    Completes (.pktGetf f) s t := by
  rw [execPktGetf] at h
  split at h
  · cases h
    exact .raised .badIndex rfl
  · split at h <;> cases h
    · exact .raised .badLength rfl
    · exact .answered .ok _ rfl rfl

theorem execPktSetf_completes {f : Byte} {d : Word} {s t : State}
    (h : execPktSetf f d s = .next t) : Completes (.pktSetf f d) s t := by
  rw [execPktSetf] at h
  split at h
  · cases h
    exact .raised .badIndex rfl
  · next g hg =>
    split at h
    · cases h
      exact .raised .badLength rfl
    · next hlegal =>
      cases h
      refine .changed _ (.writeField hg ?_)
      rintro rfl
      simpa [fieldNeedsLength] using hlegal

theorem execPktValidate_completes (s : State) :
    Completes .pktValidate s (respond (validateCode s) ((pktDlen s).setWidth 32) s) := by
  have hcode := validateCode_cases s
  generalize validateCode s = c at hcode
  refine .answered c _ ?_ ?_ <;> revert c <;> decide

theorem execTick_completes {s t : State} (h : execTick s = .next t) : Completes .tick s t := by
  simp only [execTick] at h
  split at h
  · cases h
  · next r u hrun =>
    cases h
    exact .changed _ (.tick ((rsmRun_iff _ _ _).mp hrun))

theorem execCsrWr_completes {c : Byte} {d : Word} {s t : State} (h : execCsrWr c d s = .next t) :
    Completes (.csrWr c d) s t := by
  rw [execCsrWr] at h
  split at h
  · cases h
    exact .raised .badIndex rfl
  · next r hr =>
    split at h <;> cases h
    · exact .raised .readOnly rfl
    · exact .changed _ (.writeCsr hr)

/-- A command behind one range or length check, which raises `c` where it fails. -/
theorem completes_of_checked {i : Instr} {s t u : State} {c : StatusCode} {p : Prop} [Decidable p]
    (hp : (producedBy i.opcode).contains c.code = true) (hu : p → Completes i s u)
    (h : (if p then Host.Outcome.next u else .next (raiseErr c s) :
      Host.Outcome State Fault Refusal) = .next t) : Completes i s t := by
  split at h
  · next hpass =>
    cases h
    exact hu hpass
  · cases h
    exact .raised c hp

theorem exec_completes {i : Instr} {s t : State} (h : exec i s = .next t) : Completes i s t := by
  cases i with
  | fifoPush b =>
    cases h
    exact .changed _ (.push rfl)
  | fifoPop => exact execFifoPop_completes h
  | fifoPeek k => exact execFifoPeek_completes h
  | fifoAvail =>
    cases h
    exact .answered .ok _ rfl rfl
  | fifoReset =>
    cases h
    exact .changed _ .clear
  | tmrInit n d => exact completes_of_checked rfl (fun _ => .changed _ (.setTimer n d)) h
  | tmrElapsed n => exact completes_of_checked rfl (fun _ => .answered .ok _ rfl rfl) h
  | tmrTryfire n => exact completes_of_checked rfl (fun _ => .changed _ (.tryFire n)) h
  | tmrRestart n => exact completes_of_checked rfl (fun _ => .changed _ (.restart n)) h
  | pktRd k => exact completes_of_checked rfl (fun _ => .answered .ok _ rfl rfl) h
  | pktWr k b => exact completes_of_checked rfl (fun hk => .changed _ (.writeByte hk)) h
  | pktGetf f => exact execPktGetf_completes h
  | pktSetf f d => exact execPktSetf_completes h
  | hdrCk =>
    cases h
    exact .answered .ok _ rfl rfl
  | payCk => exact completes_of_checked rfl (fun _ => .answered .ok _ rfl rfl) h
  | pktValidate =>
    cases h
    exact execPktValidate_completes s
  | pktFinalize => exact completes_of_checked rfl (fun hl => .changed _ (.finalize hl)) h
  | rsmStep =>
    obtain ⟨r, u, hmove, rfl⟩ := (execRsmStep_iff s t).mp h
    exact .changed _ (.step hmove)
  | rsmPoll =>
    obtain ⟨r, u, hpoll, rfl⟩ := (execRsmPoll_iff s t).mp h
    exact .changed _ (.poll hpoll)
  | rsmReset =>
    cases h
    exact .changed _ .resetRsm
  | rxPush b =>
    cases h
    exact .changed _ (.receive b)
  | linkCheck =>
    cases h
    exact .changed _ .check
  | linkSetest =>
    cases h
    exact .changed _ .establish
  | tick => exact execTick_completes h
  | csrRd c =>
    rw [exec_csrRd, execCsrRd] at h
    split at h <;> cases h
    · exact .raised .badIndex rfl
    · exact .answered .ok _ rfl rfl
  | csrWr c d => exact execCsrWr_completes h

/-! ### The codes -/

theorem fifoPut_status (b : Byte) (s : State) :
    (fifoPut b s).1 = .overflow ∨ (fifoPut b s).1 = .ok := by
  rw [fifoPut]
  split
  · exact .inl rfl
  · exact .inr rfl

theorem Fire.status_cases (f : Fire) : f.status = .notFired ∨ f.status = .fired := by
  cases f
  · exact .inl rfl
  · exact .inr rfl

/-- A poll answers NOT_READY or READY. -/
theorem RsmPoll.status_cases {s t : State} {r : RsmReply} (h : RsmPoll s r t) :
    r.status = .notReady ∨ r.status = .ready := by
  cases r with
  | cont => exact absurd rfl h.reply_ne_cont
  | notReady => exact .inl rfl
  | ready dl => exact .inr rfl

/-- A command that changes the block answers an outcome code that the tables name for it. -/
theorem Effect.code {i : Instr} {s u : State} {c : StatusCode} (h : Effect s i c u) :
    c.isError = false ∧ (producedBy i.opcode).contains c.code = true := by
  cases h with
  | push h =>
    obtain rfl : (fifoPut _ s).1 = c := congrArg Prod.fst h
    rcases fifoPut_status _ s with hc | hc <;> rw [hc] <;> exact ⟨rfl, rfl⟩
  | receive b =>
    rw [receiveByte_eq]
    rcases fifoPut_status b s with hc | hc <;> rw [hc] <;> exact ⟨rfl, rfl⟩
  | tryFire n =>
    rcases Fire.status_cases (Machine.tryFire n.toNat s).1 with hc | hc <;> rw [hc] <;>
      exact ⟨rfl, rfl⟩
  | check =>
    rcases Fire.status_cases (checkTimeout s).1 with hc | hc <;> rw [hc] <;> exact ⟨rfl, rfl⟩
  | @step r _ _ => cases r <;> exact ⟨rfl, rfl⟩
  | poll h | tick h => rcases h.status_cases with hc | hc <;> rw [hc] <;> exact ⟨rfl, rfl⟩
  | pop | clear | setTimer | restart | writeByte | writeField | finalize | resetRsm | establish
  | writeCsr => exact ⟨rfl, rfl⟩

/-- R70: the codes from 0xE0 on are the errors. -/
theorem isError_iff (c : StatusCode) : c.isError = true ↔ 0xE0 ≤ c.code.toNat := by
  cases c <;> decide

/-- Settles O18: a command that completes answers a code of its own row, whichever way it completes.
-/
theorem commandsProduceOnlyTheirCodes : Obligations.CommandsProduceOnlyTheirCodes := by
  intro i s t h
  cases exec_completes h with
  | raised c hp => exact List.contains_iff_mem.mp hp
  | answered c w _ hp => exact List.contains_iff_mem.mp hp
  | changed w heff => exact List.contains_iff_mem.mp heff.code.2

/-- Settles O17: the commands that answer with or without a change answer no error code, so an error
code comes from `raise Err` alone. -/
theorem errorsArePrecise : Obligations.ErrorsArePrecise := by
  intro i s t h herr
  cases exec_completes h with
  | raised c _ => rfl
  | answered c w hc _ => exact absurd ((isError_iff c).mpr herr) (by simp [hc])
  | changed w heff => exact absurd ((isError_iff _).mpr herr) (by simp [heff.code.1])

/-! ### The frame of each change -/

theorem fifoPut_frame (b : Byte) (s : State) :
    (fifoPut b s).2 = { s with
      fifoMem := (fifoPut b s).2.fifoMem
      fifoWr := (fifoPut b s).2.fifoWr
      fifoCount := (fifoPut b s).2.fifoCount
      ovfCnt := (fifoPut b s).2.ovfCnt } := by
  rw [fifoPut]
  split <;> rfl

theorem receiveByte_frame (b : Byte) (s : State) :
    (receiveByte b s).2 = { s with
      fifoMem := (fifoPut b s).2.fifoMem
      fifoWr := (fifoPut b s).2.fifoWr
      fifoCount := (fifoPut b s).2.fifoCount
      ovfCnt := (fifoPut b s).2.ovfCnt
      timers := (receiveByte b s).2.timers } := by
  rw [receiveByte_eq, fifoPut_frame]
  rfl

theorem checkTimeout_frame (s : State) :
    (checkTimeout s).2 = { s with
      fifoRd := (checkTimeout s).2.fifoRd
      fifoWr := (checkTimeout s).2.fifoWr
      fifoCount := (checkTimeout s).2.fifoCount
      rsmState := (checkTimeout s).2.rsmState
      rsmLen := (checkTimeout s).2.rsmLen
      timers := (checkTimeout s).2.timers
      linkEst := (checkTimeout s).2.linkEst
      timeoutCnt := (checkTimeout s).2.timeoutCnt } := by
  obtain ⟨hframe, -⟩ := tryFire_frame 0 s
  rcases checkTimeout_cases s with ⟨-, h⟩ | ⟨v, -, h⟩
  · rw [h, hframe]
  · rw [h, hframe]
    rfl

theorem finalized_frame (s : State) : finalized s = { s with pkt := (finalized s).pkt } := by
  rw [finalized, stampPayloadCk, stampHeaderCk, stampFrame, pktPutMany_frame]
  rfl

/-- Settles O20: what a change leaves alone is read off its frame, command by command. -/
theorem onlyTheNamedCommandsChangeState : Obligations.OnlyTheNamedCommandsChangeState := by
  intro i s t h
  cases exec_completes h with
  | raised | answered => simp
  | changed w heff =>
    cases heff with
    | push h =>
      obtain rfl := congrArg Prod.snd h
      rw [fifoPut_frame]
      simp [Instr.opcode]
    | pop h =>
      obtain ⟨-, rfl⟩ := (fifoDrop_ok_iff _ _).mp h
      simp [Instr.opcode]
    | receive b =>
      rw [receiveByte_frame]
      simp [Instr.opcode]
    | tryFire n =>
      rw [(tryFire_frame n.toNat s).1]
      simp [Instr.opcode]
    | check =>
      rw [checkTimeout_frame]
      simp [Instr.opcode]
    | writeField =>
      rw [fieldWrite_frame]
      simp [Instr.opcode]
    | finalize =>
      rw [finalized_frame]
      simp [Instr.opcode]
    | step h =>
      rw [h.frame]
      simp [Instr.opcode]
    | poll h =>
      rw [h.frame]
      simp [Instr.opcode]
    | tick h =>
      rw [h.frame, checkTimeout_frame]
      simp [Instr.opcode]
    | writeCsr =>
      rw [csrWrite_frame]
      simp [Instr.opcode]
    | clear | setTimer | restart | writeByte | resetRsm | establish => simp [Instr.opcode]

end Sys2Proof.Machine
end

section
/-! PROOFS. The invariant of the block (10_state.md R20, R24, R29, R30, R32): every change that a
command makes keeps it, reset establishes it, and in a state that satisfies it no step stops. -/

namespace Sys2Proof.Machine

/-! ### The cursors and the count (R24) -/

/-- `FifoPut(b)` on a FIFO that is not full stores the byte at the write cursor. -/
theorem fifoPut_not_full {s : State} (b : Byte) (h : s.fifoCount.toNat ≠ s.cfg.fifoCap) :
    fifoPut b s = (.ok, { s with
      fifoMem := Memory.write s.fifoMem s.fifoWr.toNat b
      fifoWr := cursorNext s.cfg s.fifoWr
      fifoCount := s.fifoCount + 1 }) := by
  simp [fifoPut, fifoFull, h]

theorem fifoCount_add_one_toNat {s : State} (hc : s.cfg.legal = true)
    (h : s.fifoCount.toNat < s.cfg.fifoCap) : (s.fifoCount + 1).toNat = s.fifoCount.toNat + 1 := by
  obtain ⟨-, -, hcap, -⟩ := s.cfg.legal_iff.mp hc
  simp [BitVec.toNat_add]
  omega

theorem fifoPut_fifoGood {s : State} (b : Byte) (hc : s.cfg.legal = true) (hg : FifoGood s) :
    FifoGood (fifoPut b s).2 := by
  by_cases hfull : s.fifoCount.toNat = s.cfg.fifoCap
  · rw [fifoPut_full b hfull]
    exact hg
  · obtain ⟨hrd, hwr, hcount, hagree⟩ := hg
    have hroom : s.fifoCount.toNat < s.cfg.fifoCap := Nat.lt_of_le_of_ne hcount hfull
    have hadd := fifoCount_add_one_toNat hc hroom
    rw [fifoPut_not_full b hfull]
    refine ⟨hrd, ?_, hadd.trans_le hroom, ?_⟩
    · rw [cursorNext_toNat hc]
      exact Nat.mod_lt _ (Nat.zero_lt_of_lt hrd)
    · rw [cursorNext_toNat hc, hadd, hagree, Nat.mod_add_mod, Nat.add_assoc]

theorem tryFire_fifoGood {s : State} (n : Nat) (hg : FifoGood s) : FifoGood (tryFire n s).2 := by
  rw [(tryFire_frame n s).1]
  exact hg

theorem checkTimeout_fifoGood {s : State} (hc : s.cfg.legal = true) (hg : FifoGood s) :
    FifoGood (checkTimeout s).2 := by
  rcases checkTimeout_cases s with ⟨-, h⟩ | ⟨v, -, h⟩ <;> rw [h]
  · exact tryFire_fifoGood 0 hg
  · have hclear := fifoGood_clear (s := (tryFire 0 s).2) (by rw [(tryFire_frame 0 s).1]; exact hc)
    exact hclear

theorem checkTimeout_cfg (s : State) : (checkTimeout s).2.cfg = s.cfg := by
  rw [checkTimeout_frame]

/-- Every change of a command keeps the agreement of the cursors and the count. -/
theorem Effect.fifoGood {i : Instr} {s u : State} {c : StatusCode} (hc : s.cfg.legal = true)
    (hg : FifoGood s) (h : Effect s i c u) : FifoGood u := by
  cases h with
  | push h =>
    obtain rfl := congrArg Prod.snd h
    exact fifoPut_fifoGood _ hc hg
  | pop h => exact fifoDrop_fifoGood hc hg h
  | clear => exact fifoGood_clear hc
  | receive b =>
    have hput := fifoPut_fifoGood b hc hg
    exact hput
  | tryFire n => exact tryFire_fifoGood n.toNat hg
  | check => exact checkTimeout_fifoGood hc hg
  | step h => exact h.fifoGood hc hg
  | poll h => exact h.fifoGood hc hg
  | tick h =>
    exact h.fifoGood (by rw [checkTimeout_cfg]; exact hc) (checkTimeout_fifoGood hc hg)
  | writeField =>
    rw [fieldWrite_frame]
    exact hg
  | finalize =>
    rw [finalized_frame]
    exact hg
  | writeCsr =>
    rw [csrWrite_frame]
    exact hg
  | setTimer | restart | writeByte | resetRsm | establish => exact hg

theorem exec_cfg {i : Instr} {s t : State} (h : exec i s = .next t) : t.cfg = s.cfg := by
  obtain ⟨⟨hcfg, -⟩, -⟩ := onlyTheNamedCommandsChangeState i s t h
  exact hcfg

/-- Settles O15: only a change can move the cursors, and every change keeps them in agreement
(`Effect.fifoGood`). -/
theorem everyCommandKeepsFifoCursors : Obligations.EveryCommandKeepsFifoCursors := by
  intro i s t hc hg h
  have hgood : FifoGood t := by
    cases exec_completes h with
    | raised | answered => exact hg
    | changed w heff =>
      have hchanged := heff.fifoGood hc hg
      exact hchanged
  obtain ⟨hrd, hwr, hcount, hagree⟩ := hgood
  rw [exec_cfg h] at hrd hwr hcount hagree
  exact ⟨hagree, hcount, hrd, hwr⟩

/-! ### Every change keeps the invariant -/

theorem inv_fifoPut {s : State} (hinv : Inv s) (b : Byte) : Inv (fifoPut b s).2 := by
  have hfifo := fifoPut_fifoGood b hinv.legal hinv.fifo
  by_cases hfull : s.fifoCount.toNat = s.cfg.fifoCap
  · rw [fifoPut_full b hfull]
    exact ⟨hinv.legal, hinv.fifo, hinv.storage, hinv.rsm, hinv.timers, hinv.status⟩
  · obtain ⟨hmem, hbelow, hpkt⟩ := hinv.storage
    obtain ⟨-, hwr, -⟩ := hinv.fifo
    rw [fifoPut_not_full b hfull] at hfifo ⊢
    exact ⟨hinv.legal, hfifo, ⟨Memory.wf_write hmem _ _, Memory.below_write hbelow hwr _, hpkt⟩,
      hinv.rsm, hinv.timers, hinv.status⟩

theorem inv_fifoDrop {s t : State} (hinv : Inv s) (h : fifoDrop s = .ok t) : Inv t := by
  have hfifo := fifoDrop_fifoGood hinv.legal hinv.fifo h
  obtain ⟨-, rfl⟩ := (fifoDrop_ok_iff s t).mp h
  exact ⟨hinv.legal, hfifo, hinv.storage, hinv.rsm, hinv.timers, hinv.status⟩

theorem inv_receiveByte {s : State} (hinv : Inv s) (b : Byte) : Inv (receiveByte b s).2 :=
  inv_setTimer (inv_fifoPut hinv b) 0 _

theorem inv_tryFire {s : State} (hinv : Inv s) (n : Nat) : Inv (tryFire n s).2 := by
  obtain ⟨hframe, hlength⟩ := tryFire_frame n s
  rw [hframe]
  exact ⟨hinv.legal, hinv.fifo, hinv.storage, hinv.rsm, hlength.trans hinv.timers, hinv.status⟩

theorem inv_linkTimeout {s : State} (hinv : Inv s) : Inv (linkTimeout s) :=
  have hclear := inv_rsmClear (inv_fifoClear hinv)
  ⟨hclear.legal, hclear.fifo, hclear.storage, hclear.rsm, hclear.timers, hclear.status⟩

theorem inv_checkTimeout {s : State} (hinv : Inv s) : Inv (checkTimeout s).2 := by
  rcases checkTimeout_cases s with ⟨-, h⟩ | ⟨v, -, h⟩ <;> rw [h]
  · exact inv_tryFire hinv 0
  · exact inv_linkTimeout (inv_tryFire hinv 0)

theorem inv_pktPutMany {s : State} (hinv : Inv s) {i : Nat} {l : List Byte}
    (h : i + l.length ≤ s.cfg.maxFrame) : Inv (pktPutMany i l s) := by
  obtain ⟨hmem, hbelow, hpkt, hpktBelow⟩ := hinv.storage
  rw [pktPutMany_frame]
  exact ⟨hinv.legal, hinv.fifo,
    ⟨hmem, hbelow, pktPutMany_wf hpkt l i, pktPutMany_below hpktBelow l i h⟩, hinv.rsm, hinv.timers,
    hinv.status⟩

theorem inv_maxFrame {s : State} (hinv : Inv s) : 16 ≤ s.cfg.maxFrame :=
  (s.cfg.legal_iff.mp hinv.legal).1

/-- The bytes of a field lie within PKT (20_memory.md R42, R54). -/
theorem fieldBytes_fit {s : State} (hinv : Inv s) (g : Field) (d : Word)
    (hlegal : g = .pck → pktLegal s = true) :
    fieldOffset g s + (fieldBytes g d s).length ≤ s.cfg.maxFrame := by
  have hmin := inv_maxFrame hinv
  cases g with
  | pck =>
    obtain ⟨hdl, hdlMax⟩ := (lengthLegal_iff _ _).mp (hlegal rfl)
    simp only [fieldOffset, fieldBytes, List.length_singleton]
    omega
  | dlen =>
    have hlen : (wireBytes s.cfg.wireOrder (d.extractLsb' 0 16)).length = 2 := by
      cases s.cfg.wireOrder <;> rfl
    simp only [fieldOffset, fieldBytes, hlen]
    omega
  | rev | macLo | macHi | method | rpc | hck | resp =>
    simp only [fieldOffset, fieldBytes, List.length_cons, List.length_nil]
    omega

theorem inv_fieldWrite {s : State} (hinv : Inv s) (g : Field) (d : Word)
    (hlegal : g = .pck → pktLegal s = true) : Inv (fieldWrite g d s) :=
  have hput := inv_pktPutMany hinv (fieldBytes_fit hinv g d hlegal)
  ⟨hput.legal, hput.fifo, hput.storage, hput.rsm, hput.timers, hput.status⟩

theorem macBytes_length (m : Mac) : (macBytes m).length = 6 := rfl

theorem stampFrame_cfg (s : State) : (stampFrame s).cfg = s.cfg := by
  rw [stampFrame, pktPutMany_frame]
  rfl

theorem inv_stampFrame {s : State} (hinv : Inv s) : Inv (stampFrame s) := by
  have hmin := inv_maxFrame hinv
  refine inv_pktPutMany (inv_pktPut hinv (by omega) _) ?_
  rw [macBytes_length, pktPut_cfg]
  omega

theorem inv_finalized {s : State} (hinv : Inv s) (h : pktLegal s = true) : Inv (finalized s) := by
  have hmin := inv_maxFrame hinv
  have hcfg := stampFrame_cfg s
  obtain ⟨hdl, hdlMax⟩ := (lengthLegal_iff _ _).mp h
  have hchecked : Inv (stampHeaderCk (stampFrame s)) :=
    inv_pktPut (inv_stampFrame hinv) (by rw [hcfg]; omega) _
  exact inv_pktPut hchecked (show _ < (stampFrame s).cfg.maxFrame by rw [hcfg]; omega) _

theorem inv_csrWrite {s : State} (hinv : Inv s) (r : Csr) (d : Word) : Inv (csrWrite r d s) := by
  rw [csrWrite_frame]
  exact ⟨hinv.legal, hinv.fifo, hinv.storage, hinv.rsm, hinv.timers, hinv.status⟩

theorem Effect.inv {i : Instr} {s u : State} {c : StatusCode} (hinv : Inv s)
    (h : Effect s i c u) : Inv u := by
  cases h with
  | push h =>
    obtain rfl := congrArg Prod.snd h
    exact inv_fifoPut hinv _
  | pop h => exact inv_fifoDrop hinv h
  | clear => exact inv_fifoClear hinv
  | setTimer n d => exact inv_setTimer hinv _ _
  | tryFire n => exact inv_tryFire hinv _
  | restart n => exact inv_setTimer hinv _ _
  | writeByte h => exact inv_pktPut hinv (of_decide_eq_true h) _
  | writeField _ hlegal => exact inv_fieldWrite hinv _ _ hlegal
  | finalize h => exact inv_finalized hinv h
  | step h => exact h.inv hinv
  | poll h => exact h.inv hinv
  | resetRsm => exact inv_rsmClear hinv
  | receive b => exact inv_receiveByte hinv b
  | check => exact inv_checkTimeout hinv
  | establish =>
    exact ⟨hinv.legal, hinv.fifo, hinv.storage, hinv.rsm, hinv.timers, hinv.status⟩
  | tick h => exact h.inv (inv_checkTimeout hinv)
  | writeCsr => exact inv_csrWrite hinv _ _

theorem exec_inv {i : Instr} {s t : State} (hinv : Inv s) (h : exec i s = .next t) : Inv t := by
  cases exec_completes h with
  | raised | answered => exact inv_respond hinv _ _
  | changed w heff => exact inv_respond (heff.inv hinv) _ _

/-! ### The step -/

theorem resetTimers_length (c : Config) : (resetTimers c).length = c.nTimers := by
  simp [resetTimers]

theorem resetTimers_getElem? {c : Config} {j : Nat} (h : j < c.nTimers) :
    (resetTimers c)[j]? = some { last := 0, intv := if j = 0 then c.linkTimeout else 0 } := by
  simp [resetTimers, h]

theorem inv_resetOf {c : Config} (hc : c.legal = true) : Inv (State.resetOf c) where
  legal := hc
  fifo := fifoGood_clear (s := State.resetOf c) hc
  storage := ⟨Memory.wf_nil, Memory.below_nil _, Memory.wf_nil, Memory.below_nil _⟩
  rsm := ⟨nofun, nofun, fun _ => rfl⟩
  timers := resetTimers_length c
  status := code_produced .ok

theorem inv_resetBlock {s : State} (hc : s.cfg.legal = true) (rest : List PortEvent) :
    Inv (resetBlock rest s) :=
  have hreset := inv_resetOf hc
  ⟨hreset.legal, hreset.fifo, hreset.storage, hreset.rsm, hreset.timers, hreset.status⟩

theorem runCommand_inv {cmd data : Word} {s t : State} (hinv : Inv s)
    (h : runCommand cmd data s = .next t) : Inv t := by
  rw [runCommand] at h
  split at h
  · exact exec_inv hinv h
  · cases h
    exact inv_respond hinv _ _

/-- Settles O13: an idle step keeps the state, a command keeps the invariant (`exec_inv`), a
received byte too (`inv_receiveByte`), and reset establishes it again. -/
theorem stepKeepsInvariant : Obligations.StepKeepsInvariant := by
  intro s t hinv h
  rw [step, if_pos hinv.legal] at h
  split at h
  · cases h
    exact hinv
  · exact runCommand_inv (inv_sampleNow hinv _ _) h
  · cases h
    exact inv_receiveByte (inv_sampleNow hinv _ _) _
  · cases h
    exact inv_resetBlock hinv.legal _

/-- Settles O12, with the reference configuration as one of the legal ones. -/
theorem resetEstablishesInvariant : Obligations.ResetEstablishesInvariant :=
  ⟨inv_resetOf (by decide), fun _ => inv_resetOf⟩

/-! ### No step stops -/

theorem next_of_checked (p : Prop) [Decidable p] (t u : State) :
    ∃ v, (if p then .next t else .next u : Host.Outcome State Fault Refusal) = .next v := by
  split
  · exact ⟨t, rfl⟩
  · exact ⟨u, rfl⟩

theorem execFifoPop_progress (s : State) : ∃ t, execFifoPop s = .next t := by
  by_cases hne : s.fifoCount = 0
  · exact ⟨_, execFifoPop_empty hne⟩
  · obtain ⟨bs, hheld⟩ := fifoHeld_of_ne_zero hne
    exact ⟨_, execFifoPop_of_fifoDrop hne (fifoPeek_zero_of_held hheld)
      ((fifoDrop_ok_iff s _).mpr ⟨hne, rfl⟩)⟩

theorem execFifoPeek_progress (k : Half) (s : State) : ∃ t, execFifoPeek k s = .next t := by
  by_cases hk : k.toNat < s.fifoCount.toNat
  · rw [execFifoPeek, if_pos hk, fifoPeek_held hk]
    exact ⟨_, rfl⟩
  · rw [execFifoPeek, if_neg hk]
    exact ⟨_, rfl⟩

theorem execTick_progress {s : State} (hinv : Inv s) : ∃ t, execTick s = .next t := by
  obtain ⟨r, t, hpoll⟩ := RsmPoll.progress (inv_checkTimeout hinv)
  simp only [execTick, hpoll.run]
  exact ⟨_, rfl⟩

/-- Only a reassembler transition can fault, and in a good state it does not. -/
theorem exec_progress (i : Instr) (s : State)
    (hinv : i.opcode ∈ ([.rsmStep, .rsmPoll, .tick] : List Opcode) → Inv s) :
    ∃ t, exec i s = .next t := by
  cases i with
  | fifoPush | fifoAvail | fifoReset | hdrCk | pktValidate | rsmReset | rxPush | linkCheck
  | linkSetest => exact ⟨_, rfl⟩
  | fifoPop => exact execFifoPop_progress s
  | fifoPeek k => exact execFifoPeek_progress k s
  | tmrInit | tmrElapsed | tmrTryfire | tmrRestart | pktRd | pktWr | payCk | pktFinalize =>
    exact next_of_checked _ _ _
  | pktGetf f =>
    rw [exec_pktGetf, execPktGetf]
    split
    · exact ⟨_, rfl⟩
    · exact next_of_checked _ _ _
  | pktSetf f d =>
    rw [exec_pktSetf, execPktSetf]
    split
    · exact ⟨_, rfl⟩
    · exact next_of_checked _ _ _
  | rsmStep =>
    obtain ⟨r, t, hmove⟩ := RsmMove.progress (hinv (by simp [Instr.opcode]))
    exact ⟨_, (execRsmStep_iff s _).mpr ⟨r, t, hmove, rfl⟩⟩
  | rsmPoll =>
    obtain ⟨r, t, hpoll⟩ := RsmPoll.progress (hinv (by simp [Instr.opcode]))
    exact ⟨_, hpoll.exec⟩
  | tick => exact execTick_progress (hinv (by simp [Instr.opcode]))
  | csrRd c =>
    rw [exec_csrRd, execCsrRd]
    split <;> exact ⟨_, rfl⟩
  | csrWr c d =>
    rw [exec_csrWr, execCsrWr]
    split
    · exact ⟨_, rfl⟩
    · exact next_of_checked _ _ _

/-- Settles O14: each kind of step has a next state; for a command that is `exec_progress`. -/
theorem stepNeverStops : Obligations.StepNeverStops := by
  intro s hinv
  rw [step, if_pos hinv.legal]
  split
  · exact ⟨_, rfl⟩
  · rw [runCommand]
    split
    · exact exec_progress _ _ fun _ => inv_sampleNow hinv _ _
    · exact ⟨_, rfl⟩
  · exact ⟨_, rfl⟩
  · exact ⟨_, rfl⟩

/-! ### Commands without side effects -/

/-- The nine commands of 20_memory.md R56. -/
abbrev readOnlyRows : List Opcode :=
  [.fifoPeek, .fifoAvail, .pktRd, .pktGetf, .hdrCk, .payCk, .pktValidate, .tmrElapsed, .csrRd]

/-- None of them reads the response registers, so a response written before makes no difference. -/
theorem exec_respond_of_readOnly {i : Instr} (h : i.opcode ∈ readOnlyRows) (c : StatusCode)
    (w : Word) (s : State) : exec i (respond c w s) = exec i s := by
  cases i with
  | fifoPeek | fifoAvail | pktRd | pktGetf | hdrCk | payCk | pktValidate | tmrElapsed | csrRd => rfl
  | _ => simp [Instr.opcode] at h

/-- None of them makes a change. -/
theorem Effect.not_readOnly {i : Instr} {s u : State} {c : StatusCode} (h : Effect s i c u) :
    i.opcode ∉ readOnlyRows := by
  cases h <;> simp [Instr.opcode]

/-- Settles O19: such a command completes (`exec_progress`) by a response alone, which it does not
read when issued again (`exec_respond_of_readOnly`). -/
theorem readOnlyCommandsRepeat : Obligations.ReadOnlyCommandsRepeat := by
  intro i s hrow
  obtain ⟨t, ht⟩ := exec_progress i s fun hstep => by
    revert hrow hstep
    cases i.opcode <;> simp
  refine ⟨t, ht, ?_⟩
  cases exec_completes ht with
  | raised c => exact ⟨rfl, (exec_respond_of_readOnly hrow c 0 s).trans ht⟩
  | answered c w => exact ⟨rfl, (exec_respond_of_readOnly hrow c w s).trans ht⟩
  | changed w heff => exact absurd hrow heff.not_readOnly

/-! ### The ports -/

theorem runCommand_of_decode_ok {cmd data : Word} {i : Instr} (h : decode cmd data = .ok i)
    (s : State) : runCommand cmd data s = exec i s := by
  rw [runCommand, h]

/-- Settles O7: the step on a HOST event runs the decoded command on the sampled state. -/
theorem stepRunsDecodedCommand : Obligations.StepRunsDecodedCommand := by
  intro s now cmd data rest i hc hi hdec
  rw [step_host hc hi, runCommand_of_decode_ok hdec]
  rfl

/-- Settles O8: with no event offered the step is the idle one. -/
theorem idleBlockHoldsItsState : Obligations.IdleBlockHoldsItsState := by
  intro s hc hi
  rw [step, if_pos hc, hi]

theorem step_rx {s : State} {now : Word} {b : Byte} {rest : List PortEvent}
    (hc : s.cfg.legal = true) (hi : s.inputs = .rx now b :: rest) :
    step s = .next (receiveByte b (sampleNow now rest s)).2 := by
  rw [step, if_pos hc, hi]
  rfl

theorem receiveByte_status_result (b : Byte) (s : State) :
    (receiveByte b s).2.status = s.status ∧ (receiveByte b s).2.result = s.result := by
  rw [receiveByte_frame]
  exact ⟨rfl, rfl⟩

/-- Settles O10: both run `receiveByte`, which leaves the response registers alone
(`receiveByte_status_result`). -/
theorem rxPortIsRxPushWithoutResponse : Obligations.RxPortIsRxPushWithoutResponse := by
  intro s now b rest hc hi
  obtain ⟨hstatus, hresult⟩ := receiveByte_status_result b (sampleNow now rest s)
  refine ⟨_, rfl, (step_rx hc hi).trans (congrArg Host.Outcome.next ?_)⟩
  change _ = { (receiveByte b (sampleNow now rest s)).2 with
    status := (sampleNow now rest s).status
    result := (sampleNow now rest s).result }
  rw [← hstatus, ← hresult]

theorem step_reset {s : State} {rest : List PortEvent} (hc : s.cfg.legal = true)
    (hi : s.inputs = .reset :: rest) : step s = .next (resetBlock rest s) := by
  rw [step, if_pos hc, hi]

/-- Settles O11: the timers need a word (`resetTimers_getElem?`); every other piece of state is read
off the reset state. -/
theorem resetStepSetsEveryPieceOfState : Obligations.ResetStepSetsEveryPieceOfState := by
  intro s rest hc hi
  exact ⟨resetBlock rest s, step_reset hc hi, fun _ => rfl, rfl, rfl, rfl, fun _ => rfl, rfl, rfl, rfl,
    resetTimers_length s.cfg, fun _ => resetTimers_getElem?, rfl, rfl, rfl, rfl, rfl, rfl, rfl, rfl,
    rfl, rfl, rfl, rfl, rfl, rfl⟩

end Sys2Proof.Machine
end

section
/-! PROOFS. The control and status registers (46_csr.md R140 to R142, 10_state.md R34): a number
names a CSR or nothing, and the two commands follow what it names. -/

namespace Sys2Proof.Machine

/-! ### The two commands at what a number names -/

theorem execCsrRd_of_some {s : State} {c : Byte} {r : Csr} (h : csrOf s.cfg c = some r) :
    execCsrRd c s = .next (respond .ok (csrRead r s) s) := by
  rw [execCsrRd, h]

theorem execCsrRd_of_none {s : State} {c : Byte} (h : csrOf s.cfg c = none) :
    execCsrRd c s = .next (raiseErr .badIndex s) := by
  rw [execCsrRd, h]

theorem execCsrWr_of_none {s : State} {c : Byte} (d : Word) (h : csrOf s.cfg c = none) :
    execCsrWr c d s = .next (raiseErr .badIndex s) := by
  rw [execCsrWr, h]

theorem execCsrWr_of_some {s : State} {c : Byte} {r : Csr} (d : Word)
    (h : csrOf s.cfg c = some r) :
    execCsrWr c d s =
      if r.readOnly then .next (raiseErr .readOnly s)
      else .next (respond .ok 0 (csrWrite r d s)) := by
  rw [execCsrWr, h]

theorem execCsrWr_readOnly {s : State} {c : Byte} {r : Csr} (d : Word)
    (h : csrOf s.cfg c = some r) (hr : r.readOnly = true) :
    execCsrWr c d s = .next (raiseErr .readOnly s) := by
  rw [execCsrWr_of_some d h, if_pos hr]

/-! ### The numbers (R34) -/

/-- Above the fifteen numbers that name one CSR each, only the two timer ranges are defined. -/
theorem csrOf_of_gt {cfg : Config} {c : Byte} (h : 0x0E < c.toNat) :
    csrOf cfg c =
      if 0x20 ≤ c.toNat ∧ c.toNat < 0x20 + cfg.nTimers then some (.tmrLast (c.toNat - 0x20))
      else if 0x30 ≤ c.toNat ∧ c.toNat < 0x30 + cfg.nTimers then some (.tmrIntv (c.toNat - 0x30))
      else none := by
  unfold csrOf
  split
  case h_16 => rfl
  all_goals omega

theorem csrOf_tmrLast {cfg : Config} {c : Byte} (h : 0x20 ≤ c.toNat)
    (hc : c.toNat < 0x20 + cfg.nTimers) : csrOf cfg c = some (.tmrLast (c.toNat - 0x20)) := by
  rw [csrOf_of_gt (by omega), if_pos ⟨h, hc⟩]

theorem csrOf_tmrIntv {cfg : Config} {c : Byte} (hlegal : cfg.legal = true) (h : 0x30 ≤ c.toNat)
    (hc : c.toNat < 0x30 + cfg.nTimers) : csrOf cfg c = some (.tmrIntv (c.toNat - 0x30)) := by
  obtain ⟨-, -, -, -, hmax⟩ := cfg.legal_iff.mp hlegal
  rw [csrOf_of_gt (by omega), if_neg (by omega), if_pos ⟨h, hc⟩]

/-- A number below 0x0F or in a timer range is defined (46_csr.md R140). -/
abbrev CsrDefined (cfg : Config) (c : Byte) : Prop :=
  c.toNat ≤ 0x0E ∨ (0x20 ≤ c.toNat ∧ c.toNat < 0x20 + cfg.nTimers) ∨
    (0x30 ≤ c.toNat ∧ c.toNat < 0x30 + cfg.nTimers)

theorem csrOf_of_not_defined {cfg : Config} {c : Byte} (h : ¬ CsrDefined cfg c) :
    csrOf cfg c = none := by
  rw [csrOf_of_gt (by omega), if_neg (by omega), if_neg (by omega)]

/-! ### CSR_RD -/

/-- A read answers the value of the CSR, which `v` is. -/
theorem execCsrRd_value {s : State} {c : Byte} {r : Csr} {v : Nat} (h : csrOf s.cfg c = some r)
    (hv : csrRead r s = BitVec.ofNat 32 v) :
    exec (.csrRd c) s = .next { s with status := 0x00, result := BitVec.ofNat 32 v } := by
  rw [exec_csrRd, execCsrRd_of_some h, hv]
  rfl

theorem ofNat_toNat_setWidth {n : Nat} (b : BitVec n) : b.setWidth 32 = BitVec.ofNat 32 b.toNat :=
  BitVec.eq_of_toNat_eq (by simp)

/-- A number that fits `n` bits is not cut by them on its way to a 32-bit word. -/
theorem ofNat_setWidth {n v : Nat} (h : v < 2 ^ n) :
    (BitVec.ofNat n v).setWidth 32 = BitVec.ofNat 32 v := by
  rw [ofNat_toNat_setWidth, BitVec.toNat_ofNat, Nat.mod_eq_of_lt h]

theorem macLo_value (m : Mac) : m.extractLsb' 0 32 = BitVec.ofNat 32 (m.toNat % 2 ^ 32) := by
  apply BitVec.eq_of_toNat_eq
  simp

theorem macHi_value (m : Mac) :
    (m.extractLsb' 32 16).setWidth 32 = BitVec.ofNat 32 (m.toNat / 2 ^ 32) := by
  have hlt := m.isLt
  rw [ofNat_toNat_setWidth, BitVec.extractLsb'_toNat, Nat.shiftRight_eq_div_pow,
    Nat.mod_eq_of_lt (by omega)]

/-- Settles O56: the fifteen single numbers each name their CSR, the timer ranges are
`csrOf_tmrLast` and `csrOf_tmrIntv`, and no other number is defined; legality makes the capacities
fit their fields. -/
theorem csrRdReadsTheMap : Obligations.CsrRdReadsTheMap := by
  intro s hlegal ok
  obtain ⟨hmin, hframe, hcap, hone, htimers⟩ := s.cfg.legal_iff.mp hlegal
  have hword (w : Word) : w = BitVec.ofNat 32 w.toNat := by simp
  refine ⟨?_, ?_, ?_, ?_, ?_, ?_, ?_, ?_, ?_, ?_, ?_, ?_, ?_, ?_, ?_, fun t tm ht htm => ⟨?_, ?_⟩,
    fun c hc => ?_⟩
  · exact execCsrRd_value (r := .cfgRev) rfl (ofNat_toNat_setWidth _)
  · exact execCsrRd_value (r := .status) rfl (hword _)
  · exact execCsrRd_value (r := .fifoCount) rfl (ofNat_toNat_setWidth _)
  · exact execCsrRd_value (r := .junkCnt) rfl (hword _)
  · exact execCsrRd_value (r := .ovfCnt) rfl (hword _)
  · exact execCsrRd_value (r := .hdrfailCnt) rfl (hword _)
  · exact execCsrRd_value (r := .payfailCnt) rfl (hword _)
  · exact execCsrRd_value (r := .frameCnt) rfl (hword _)
  · exact execCsrRd_value (r := .timeoutCnt) rfl (hword _)
  · exact execCsrRd_value (r := .macLo) rfl (macLo_value _)
  · exact execCsrRd_value (r := .macHi) rfl (macHi_value _)
  · exact execCsrRd_value (r := .rsmLen) rfl (ofNat_toNat_setWidth _)
  · exact execCsrRd_value (r := .capFifo) rfl (ofNat_setWidth (by omega))
  · exact execCsrRd_value (r := .capFrame) rfl (ofNat_setWidth (by omega))
  · exact execCsrRd_value (r := .capTimers) rfl (ofNat_setWidth (by omega))
  · have hnum : (BitVec.ofNat 8 (0x20 + t)).toNat = 0x20 + t := by
      rw [BitVec.toNat_ofNat, Nat.mod_eq_of_lt (by omega)]
    refine execCsrRd_value (csrOf_tmrLast (by omega) (by omega)) ?_
    rw [csrRead, hnum, Nat.add_sub_cancel_left, timerAt_of_getElem? htm]
    exact hword _
  · have hnum : (BitVec.ofNat 8 (0x30 + t)).toNat = 0x30 + t := by
      rw [BitVec.toNat_ofNat, Nat.mod_eq_of_lt (by omega)]
    refine execCsrRd_value (csrOf_tmrIntv hlegal (by omega) (by omega)) ?_
    rw [csrRead, hnum, Nat.add_sub_cancel_left, timerAt_of_getElem? htm]
    exact hword _
  · exact execCsrRd_of_none (csrOf_of_not_defined hc)

/-! ### CSR_WR -/

theorem macSetLo_eq (m : Mac) (d : Word) :
    macSetLo m d = BitVec.ofNat 48 (m.toNat / 2 ^ 32 * 2 ^ 32 + d.toNat) := by
  have hm := m.isLt
  have hd := d.isLt
  apply BitVec.eq_of_toNat_eq
  rw [macSetLo, BitVec.toNat_append, BitVec.extractLsb'_toNat, BitVec.toNat_ofNat,
    Nat.shiftRight_eq_div_pow, ← Nat.shiftLeft_add_eq_or_of_lt hd, Nat.shiftLeft_eq]
  omega

theorem macSetHi_eq (m : Mac) (d : Word) :
    macSetHi m d = BitVec.ofNat 48 (d.toNat % 2 ^ 16 * 2 ^ 32 + m.toNat % 2 ^ 32) := by
  have hlow : (m.extractLsb' 0 32).toNat < 2 ^ 32 := BitVec.isLt _
  apply BitVec.eq_of_toNat_eq
  rw [macSetHi, BitVec.toNat_append, ← Nat.shiftLeft_add_eq_or_of_lt hlow, Nat.shiftLeft_eq,
    BitVec.extractLsb'_toNat, BitVec.extractLsb'_toNat, BitVec.toNat_ofNat,
    Nat.shiftRight_zero, Nat.shiftRight_zero]
  omega

/-- Settles O58: the nine writable CSRs are written by `csrWrite`, the two halves of `DEV_MAC` as
numbers (`macSetLo_eq`, `macSetHi_eq`); the other defined numbers are read-only, and the rest name
nothing. -/
theorem csrWrWritesTheNamedRegister : Obligations.CsrWrWritesTheNamedRegister := by
  intro s d hlegal
  refine ⟨?_, rfl, rfl, rfl, rfl, rfl, rfl, ?_, ?_, fun c hc => ?_, fun c hc => ?_⟩
  · have hbyte : d.extractLsb' 0 8 = d.setWidth 8 := BitVec.eq_of_toNat_eq (by simp)
    rw [← hbyte]
    rfl
  · rw [← macSetLo_eq]
    rfl
  · rw [← macSetHi_eq]
    rfl
  · rcases hc with hc | ⟨hlo, hhi⟩ | ⟨hlo, hhi⟩
    · simp only [List.mem_cons, List.not_mem_nil, or_false] at hc
      rcases hc with rfl | rfl | rfl | rfl | rfl | rfl <;> rfl
    · exact execCsrWr_readOnly d (csrOf_tmrLast hlo hhi) rfl
    · exact execCsrWr_readOnly d (csrOf_tmrIntv hlegal hlo hhi) rfl
  · exact execCsrWr_of_none d (csrOf_of_not_defined hc)

end Sys2Proof.Machine
end

section
/-! PROOFS. The storage outside the held bytes and the absolute cursors are not observable
(10_state.md R24, R36). Two states with the same view differ in the three fields of the ring buffer
alone: a command that does not touch the FIFO carries them along, and one that does works on the
queue of held bytes. -/

namespace Sys2Proof.Machine

/-! ### The ring buffer as a part of the state -/

/-- `s` with another storage and other cursors. -/
def withRing (m : Memory) (rd wr : Half) (s : State) : State :=
  { s with fifoMem := m, fifoRd := rd, fifoWr := wr }

@[simp] theorem withRing_pkt (m : Memory) (rd wr : Half) (s : State) :
    (withRing m rd wr s).pkt = s.pkt := rfl

theorem SameView.exists_ring {s t : State} (h : SameView s t) :
    ∃ m rd wr, t = withRing m rd wr s := ⟨_, _, _, h.2⟩

/-- States with the same queue that agree outside the FIFO have the same view: the queue fixes the
count. -/
theorem sameView_of_held {s t : State} (hheld : fifoHeld s = fifoHeld t)
    (hframe : t = { s with
      fifoMem := t.fifoMem
      fifoRd := t.fifoRd
      fifoWr := t.fifoWr
      fifoCount := t.fifoCount }) : SameView s t := by
  have hcount : t.fifoCount = s.fifoCount := by
    have hlength := congrArg List.length hheld
    rw [fifoHeld_length, fifoHeld_length] at hlength
    exact (BitVec.eq_of_toNat_eq hlength).symm
  rw [hcount] at hframe
  exact ⟨hheld, hframe⟩

/-- An update that touches neither the queue nor the ring keeps the view. -/
theorem SameView.update {s t s' t' : State} (h : SameView s t) (hs : fifoHeld s' = fifoHeld s)
    (ht : fifoHeld t' = fifoHeld t)
    (hframe : t' = { s' with fifoMem := t'.fifoMem, fifoRd := t'.fifoRd, fifoWr := t'.fifoWr }) :
    SameView s' t' := ⟨hs.trans (h.1.trans ht.symm), hframe⟩

theorem SameView.respond {s t : State} (c : StatusCode) (w : Word) (h : SameView s t) :
    SameView (respond c w s) (respond c w t) := by
  obtain ⟨m, rd, wr, rfl⟩ := h.exists_ring
  exact h.update (fifoHeld_respond c w s) (fifoHeld_respond c w _) rfl

/-! ### The FIFO primitives keep the view -/

theorem SameView.put {s t : State} (hs : Inv s) (ht : Inv t) (h : SameView s t) (b : Byte) :
    (fifoPut b t).1 = (fifoPut b s).1 ∧ SameView (fifoPut b s).2 (fifoPut b t).2 := by
  obtain ⟨m, rd, wr, rfl⟩ := h.exists_ring
  obtain ⟨hheld, -⟩ := h
  obtain ⟨-, -, hcount, -⟩ := hs.fifo
  rcases hcount.eq_or_lt with hfull | hroom
  · rw [fifoPut_full b hfull, fifoPut_full b (s := withRing m rd wr s) hfull]
    exact ⟨rfl, hheld, rfl⟩
  · obtain ⟨u, hu, hheldu, -, -, hframeu⟩ := fifoPut_room b hs.legal hs.fifo hs.storage.1 hroom
    obtain ⟨v, hv, hheldv, -, -, hframev⟩ := fifoPut_room b ht.legal ht.fifo ht.storage.1 hroom
    rw [hu, hv]
    refine ⟨rfl, by rw [hheldu, hheldv, hheld], ?_⟩
    rw [hframev, hframeu]
    rfl

theorem SameView.drop {s t s' : State} (hs : Inv s) (ht : Inv t) (h : SameView s t)
    (hdrop : fifoDrop s = .ok s') : ∃ t', fifoDrop t = .ok t' ∧ SameView s' t' := by
  obtain ⟨m, rd, wr, rfl⟩ := h.exists_ring
  obtain ⟨hne, hs'⟩ := (fifoDrop_ok_iff s s').mp hdrop
  have hdrop' := (fifoDrop_ok_iff (withRing m rd wr s) _).mpr ⟨hne, rfl⟩
  refine ⟨_, hdrop', ?_, ?_⟩
  · rw [fifoDrop_held hs hdrop, fifoDrop_held ht hdrop', h.1]
  · rw [hs']
    rfl

theorem SameView.junk {s t s' : State} (hs : Inv s) (ht : Inv t) (h : SameView s t)
    (hjunk : junkOne s = .ok s') : ∃ t', junkOne t = .ok t' ∧ SameView s' t' := by
  obtain ⟨m, rd, wr, rfl⟩ := h.exists_ring
  obtain ⟨hne, hs'⟩ := (junkOne_ok_iff s s').mp hjunk
  have hjunk' := (junkOne_ok_iff (withRing m rd wr s) _).mpr ⟨hne, rfl⟩
  refine ⟨_, hjunk', ?_, ?_⟩
  · rw [junkOne_held hs hjunk, junkOne_held ht hjunk', h.1]
  · rw [hs']
    rfl

theorem SameView.clear {s t : State} (h : SameView s t) :
    SameView (fifoClear s) (fifoClear t) := by
  obtain ⟨m, rd, wr, rfl⟩ := h.exists_ring
  exact ⟨by rw [fifoHeld_clear, fifoHeld_clear], rfl⟩

theorem SameView.linkTimeout {s t : State} (h : SameView s t) :
    SameView (linkTimeout s) (linkTimeout t) := by
  obtain ⟨m, rd, wr, rfl⟩ := h.exists_ring
  have hclear := fifoHeld_clear s
  have hclear' := fifoHeld_clear (withRing m rd wr s)
  exact ⟨hclear.trans hclear'.symm, rfl⟩

/-! ### The reassembler keeps the view -/

theorem SameView.latchedFrame {s t : State} (h : SameView s t) :
    latchedFrame t = latchedFrame s := by
  obtain ⟨m, rd, wr, rfl⟩ := h.exists_ring
  rw [Machine.latchedFrame, ← h.1]
  rfl

theorem SameView.withLatchedFrame {s t : State} (h : SameView s t) :
    SameView (withLatchedFrame s) (withLatchedFrame t) := by
  have hframe := h.latchedFrame
  obtain ⟨m, rd, wr, rfl⟩ := h.exists_ring
  refine h.update (fifoHeld_congr rfl rfl rfl rfl) (fifoHeld_congr rfl rfl rfl rfl) ?_
  rw [Machine.withLatchedFrame, hframe, pktPutMany_pkt_congr (withRing_pkt m rd wr s)]
  rfl

theorem SameView.dropMany {n : Nat} {s t s' : State} (h : SameView s t)
    (hc : s.cfg.legal = true) (hg : FifoGood s) (ht : FifoGood t) (hn : n ≤ s.fifoCount.toNat)
    (hdrop : fifoDropMany n s = .ok s') : ∃ t', fifoDropMany n t = .ok t' ∧ SameView s' t' := by
  obtain ⟨m, rd, wr, rfl⟩ := h.exists_ring
  obtain ⟨t', ht', hheld', -⟩ := fifoDropMany_spec (s := withRing m rd wr s) hc ht hn
  refine ⟨t', ht', sameView_of_held ?_ ?_⟩
  · rw [fifoDropMany_held hc hg hn hdrop, hheld', h.1]
  · rw [fifoDropMany_frame hdrop, fifoDropMany_frame ht']
    rfl

theorem SameView.move {s t s' : State} {r : RsmReply} (hs : Inv s) (ht : Inv t) (h : SameView s t)
    (hmove : RsmMove s r s') : ∃ t', RsmMove t r t' ∧ SameView s' t' := by
  have hframe := h.latchedFrame
  have hheld := h.1
  obtain ⟨m, rd, wr, rfl⟩ := h.exists_ring
  cases hmove with
  | waitSeeking hst hfew => exact ⟨_, .waitSeeking hst hfew, h⟩
  | waitHeader hst hfew => exact ⟨_, .waitHeader hst hfew, h⟩
  | waitPayload hst hfew => exact ⟨_, .waitPayload hst hfew, h⟩
  | tag hst hcons =>
    exact ⟨_, .tag (s := withRing m rd wr s) hst (hheld.symm.trans hcons),
      h.update (fifoHeld_congr rfl rfl rfl rfl) (fifoHeld_congr rfl rfl rfl rfl) rfl⟩
  | junk hst hcons hb hjunk =>
    obtain ⟨t', hjunk', hview⟩ := h.junk hs ht hjunk
    exact ⟨t', .junk hst (hheld.symm.trans hcons) hb hjunk', hview⟩
  | accept hst henough hgood =>
    refine ⟨_, .accept (s := withRing m rd wr s) hst henough (hheld ▸ hgood),
      h.update (fifoHeld_congr rfl rfl rfl rfl) (fifoHeld_congr rfl rfl rfl rfl) ?_⟩
    rw [hheld]
    rfl
  | rejectHeader hst henough hbad hjunk =>
    obtain ⟨t', hjunk', hview⟩ := h.junk hs ht hjunk
    refine ⟨_, .rejectHeader (s := withRing m rd wr s) hst henough (hheld ▸ hbad) hjunk', ?_⟩
    obtain ⟨m', rd', wr', rfl⟩ := hview.exists_ring
    exact hview.update (fifoHeld_congr rfl rfl rfl rfl) (fifoHeld_congr rfl rfl rfl rfl) rfl
  | rejectPayload hst henough hlegal hbad hjunk =>
    obtain ⟨t', hjunk', hview⟩ := h.junk hs ht hjunk
    refine ⟨_, .rejectPayload (s := withRing m rd wr s) hst henough hlegal
      (by rw [hframe]; exact hbad) hjunk', ?_⟩
    obtain ⟨m', rd', wr', rfl⟩ := hview.exists_ring
    exact hview.update (fifoHeld_congr rfl rfl rfl rfl) (fifoHeld_congr rfl rfl rfl rfl) rfl
  | deliver hst henough hlegal hgood hdrop =>
    obtain ⟨t', hdrop', hview⟩ :=
      h.withLatchedFrame.dropMany hs.legal hs.fifo ht.fifo henough hdrop
    refine ⟨_, .deliver (s := withRing m rd wr s) hst henough hlegal (by rw [hframe]; exact hgood)
      hdrop', ?_⟩
    obtain ⟨m', rd', wr', rfl⟩ := hview.exists_ring
    exact hview.update (fifoHeld_congr rfl rfl rfl rfl) (fifoHeld_congr rfl rfl rfl rfl) rfl

theorem SameView.poll {s t s' : State} {r : RsmReply} (hs : Inv s) (ht : Inv t) (h : SameView s t)
    (hpoll : RsmPoll s r s') : ∃ t', RsmPoll t r t' ∧ SameView s' t' := by
  induction hpoll generalizing t with
  | stop hmove hr =>
    obtain ⟨t', hmove', hview⟩ := h.move hs ht hmove
    exact ⟨t', .stop hmove' hr, hview⟩
  | step hmove _ ih =>
    obtain ⟨u, hmove', hview⟩ := h.move hs ht hmove
    obtain ⟨t', hpoll', hview'⟩ := ih (hmove.inv hs) (hmove'.inv ht) hview
    exact ⟨t', .step hmove' hpoll', hview'⟩

theorem SameView.rsmLow {s t : State} (h : SameView s t) (r : RsmReply) :
    rsmLow r t = rsmLow r s := by
  obtain ⟨m, rd, wr, rfl⟩ := h.exists_ring
  cases r <;> rfl

/-- The responses of a reassembler command agree. -/
theorem SameView.answer {s t : State} (h : SameView s t) (r : RsmReply) :
    SameView (rsmAnswer r s) (rsmAnswer r t) := by
  rw [rsmAnswer, rsmAnswer, h.rsmLow r]
  exact h.respond _ _

/-! ### The firing check carries the ring along -/

theorem tryFire_withRing (m : Memory) (rd wr : Half) (n : Nat) (s : State) :
    tryFire n (withRing m rd wr s) = ((tryFire n s).1, withRing m rd wr (tryFire n s).2) := by
  have hlast : timerAt (withRing m rd wr s) n = timerAt s n := rfl
  rcases tryFire_cases n s with
    ⟨hback, h⟩ | ⟨hclock, hf, h⟩ | ⟨hclock, hf, hover, h⟩ | ⟨hclock, hf, hover, h⟩
  · rw [h, tryFire_backward (s := withRing m rd wr s) hback]
    rfl
  · rw [h, tryFire_of_not_fires (s := withRing m rd wr s) hclock (by rw [hlast]; exact Bool.eq_false_iff.mp hf)]
  · rw [h, tryFire_snap (s := withRing m rd wr s) hclock hf hover]
    rfl
  · rw [h, tryFire_catchUp (s := withRing m rd wr s) hclock hf hover]
    rfl

theorem SameView.check {s t : State} (h : SameView s t) :
    (checkTimeout t).1 = (checkTimeout s).1 ∧ SameView (checkTimeout s).2 (checkTimeout t).2 := by
  obtain ⟨m, rd, wr, rfl⟩ := h.exists_ring
  have hfire := tryFire_withRing m rd wr 0 s
  have hheld : SameView (tryFire 0 s).2 (withRing m rd wr (tryFire 0 s).2) := by
    rw [(tryFire_frame 0 s).1]
    exact h.update (fifoHeld_congr rfl rfl rfl rfl) (fifoHeld_congr rfl rfl rfl rfl) rfl
  rw [checkTimeout, checkTimeout, hfire]
  cases hres : tryFire 0 s with
  | mk f u =>
    rw [hres] at hheld
    cases f with
    | notFired => exact ⟨rfl, hheld⟩
    | fired v => exact ⟨rfl, hheld.linkTimeout⟩

/-! ### The commands that do not touch the FIFO -/

/-- An outcome with its next state changed. -/
def mapNext (f : State → State) :
    Host.Outcome State Fault Refusal → Host.Outcome State Fault Refusal
  | .next s => .next (f s)
  | .fault e => .fault e
  | .refused e => .refused e

/-- The commands that write the FIFO, and FIFO_PEEK, which reads it. -/
abbrev fifoRows : List Opcode :=
  [.fifoPush, .fifoPop, .fifoPeek, .fifoReset, .rsmStep, .rsmPoll, .rxPush, .linkCheck, .tick]

section
variable (m : Memory) (rd wr : Half) (s : State)

variable {m rd wr s} in
/-- A checked command carries the ring along where both of its outcomes do. -/
theorem checked_withRing {p : Prop} {_ : Decidable p} {a b a' b' : State}
    (ha : a' = withRing m rd wr a) (hb : b' = withRing m rd wr b) :
    (if p then .next a' else .next b' : Host.Outcome State Fault Refusal) =
    mapNext (withRing m rd wr) (if p then .next a else .next b) := by
  rw [ha, hb]
  split <;> rfl

theorem pktPutMany_withRing (l : List Byte) (i : Nat) :
    pktPutMany i l (withRing m rd wr s) = withRing m rd wr (pktPutMany i l s) := by
  rw [pktPutMany_frame, pktPutMany_frame l i s, pktPutMany_pkt_congr (withRing_pkt m rd wr s)]
  rfl

theorem fieldWrite_withRing (g : Field) (d : Word) :
    fieldWrite g d (withRing m rd wr s) = withRing m rd wr (fieldWrite g d s) := by
  have hoffset : fieldOffset g (withRing m rd wr s) = fieldOffset g s := by cases g <;> rfl
  have hbytes : fieldBytes g d (withRing m rd wr s) = fieldBytes g d s := by cases g <;> rfl
  have hresp : fieldResp g d (withRing m rd wr s) = fieldResp g d s := by cases g <;> rfl
  rw [fieldWrite, hoffset, hbytes, hresp, pktPutMany_withRing]
  rfl

theorem finalized_withRing : finalized (withRing m rd wr s) = withRing m rd wr (finalized s) := by
  have hstamp : stampFrame (withRing m rd wr s) = withRing m rd wr (stampFrame s) :=
    pktPutMany_withRing m rd wr (pktPut 0 s.cfgRev s) _ _
  rw [finalized, hstamp]
  rfl

theorem exec_withRing {i : Instr} (h : i.opcode ∉ fifoRows) :
    exec i (withRing m rd wr s) = mapNext (withRing m rd wr) (exec i s) := by
  cases i with
  | fifoAvail | hdrCk | pktValidate | rsmReset | linkSetest => rfl
  | tmrInit | tmrElapsed | tmrRestart | pktRd | pktWr | payCk => exact checked_withRing (by rfl) (by rfl)
  | tmrTryfire n =>
    rw [exec_tmrTryfire, exec_tmrTryfire, execTmrTryfire, tryFire_withRing]
    exact checked_withRing (by rfl) (by rfl)
  | pktGetf f =>
    rw [exec_pktGetf, exec_pktGetf, execPktGetf, execPktGetf]
    split
    · rfl
    · next g _ =>
      have hread : fieldRead g (withRing m rd wr s) = fieldRead g s := by cases g <;> rfl
      rw [hread]
      exact checked_withRing (by rfl) (by rfl)
  | pktSetf f d =>
    rw [exec_pktSetf, exec_pktSetf, execPktSetf, execPktSetf]
    split
    · rfl
    · rw [fieldWrite_withRing]
      exact checked_withRing (by rfl) (by rfl)
  | pktFinalize =>
    have hfinal := finalized_withRing m rd wr s
    simp only [exec_pktFinalize, execPktFinalize]
    rw [finalized] at hfinal
    rw [hfinal]
    exact checked_withRing (by rfl) (by rfl)
  | csrRd c =>
    cases hc : csrOf s.cfg c with
    | none =>
      rw [exec_csrRd, exec_csrRd, execCsrRd_of_none hc,
        execCsrRd_of_none (s := withRing m rd wr s) hc]
      rfl
    | some r =>
      have hread : csrRead r (withRing m rd wr s) = csrRead r s := by cases r <;> rfl
      rw [exec_csrRd, exec_csrRd, execCsrRd_of_some hc,
        execCsrRd_of_some (s := withRing m rd wr s) hc, hread]
      rfl
  | csrWr c d =>
    cases hc : csrOf s.cfg c with
    | none =>
      rw [exec_csrWr, exec_csrWr, execCsrWr_of_none d hc,
        execCsrWr_of_none (s := withRing m rd wr s) d hc]
      rfl
    | some r =>
      have hwrite : csrWrite r d (withRing m rd wr s) = withRing m rd wr (csrWrite r d s) := by
        cases r <;> rfl
      rw [exec_csrWr, exec_csrWr, execCsrWr_of_some d hc,
        execCsrWr_of_some (s := withRing m rd wr s) d hc, hwrite]
      exact checked_withRing (by rfl) (by rfl)
  | fifoPush | fifoPop | fifoPeek | fifoReset | rsmStep | rsmPoll | rxPush | linkCheck | tick =>
    simp [Instr.opcode] at h

end

/-- Such a command leaves the FIFO as it was, so it keeps the view. -/
theorem SameView.exec_of_not_fifo {i : Instr} {s t s' : State} (hi : i.opcode ∉ fifoRows)
    (h : SameView s t) (hexec : exec i s = .next s') :
    ∃ t', exec i t = .next t' ∧ SameView s' t' := by
  obtain ⟨m, rd, wr, rfl⟩ := h.exists_ring
  have hexec' : exec i (withRing m rd wr s) = .next (withRing m rd wr s') := by
    rw [exec_withRing m rd wr s hi, hexec]
    rfl
  have hrows : i.opcode ∉ ([.fifoPush, .fifoPop, .fifoReset, .rsmStep, .rsmPoll, .rxPush,
      .linkCheck, .tick] : List Opcode) := by
    revert hi
    cases i.opcode <;> decide
  obtain ⟨⟨hcfg, -⟩, -, -, -, -, -, -, -, -, -, hfifo⟩ :=
    onlyTheNamedCommandsChangeState i s s' hexec
  obtain ⟨hmem, hrd, -, hcount⟩ := hfifo hrows
  refine ⟨_, hexec', h.update (fifoHeld_congr hmem hrd hcount (by rw [hcfg]))
    (fifoHeld_congr rfl rfl hcount ?_) rfl⟩
  exact congrArg Config.fifoCap hcfg

/-! ### The commands that do -/

theorem SameView.execPop {s t s' : State} (hs : Inv s) (ht : Inv t) (h : SameView s t)
    (hexec : execFifoPop s = .next s') : ∃ t', execFifoPop t = .next t' ∧ SameView s' t' := by
  have hheld := h.1
  by_cases hne : s.fifoCount = 0
  · have hne' : t.fifoCount = 0 := by rw [h.2]; exact hne
    rw [execFifoPop_empty hne] at hexec
    cases hexec
    exact ⟨_, execFifoPop_empty hne', h.respond _ _⟩
  · have hne' : t.fifoCount ≠ 0 := by rw [h.2]; exact hne
    obtain ⟨bs, hcons⟩ := fifoHeld_of_ne_zero hne
    have hdrop := (fifoDrop_ok_iff s _).mpr ⟨hne, rfl⟩
    obtain ⟨t', hdrop', hview⟩ := h.drop hs ht hdrop
    rw [execFifoPop_of_fifoDrop hne (fifoPeek_zero_of_held hcons) hdrop] at hexec
    cases hexec
    exact ⟨_, execFifoPop_of_fifoDrop hne' (fifoPeek_zero_of_held (hheld.symm.trans hcons)) hdrop',
      hview.respond _ _⟩

theorem SameView.execPeek {s t s' : State} {k : Half} (h : SameView s t)
    (hexec : execFifoPeek k s = .next s') : ∃ t', execFifoPeek k t = .next t' ∧ SameView s' t' := by
  have hheld := h.1
  have hcount : t.fifoCount = s.fifoCount := by rw [h.2]
  by_cases hk : k.toNat < s.fifoCount.toNat
  · rw [execFifoPeek, if_pos hk, fifoPeek_held hk] at hexec
    cases hexec
    rw [execFifoPeek, if_pos (by rwa [hcount]), fifoPeek_held (by rwa [hcount])]
    simp only [← hheld]
    exact ⟨_, rfl, h.respond _ _⟩
  · rw [execFifoPeek, if_neg hk] at hexec
    cases hexec
    exact ⟨_, if_neg (by rwa [hcount]), h.respond _ _⟩

/-- A command that answers with the count after a put. -/
theorem SameView.respondCount {s t : State} (h : SameView s t) (c : StatusCode) :
    SameView (Machine.respond c (s.fifoCount.setWidth 32) s)
      (Machine.respond c (t.fifoCount.setWidth 32) t) := by
  have hcount : t.fifoCount = s.fifoCount := by rw [h.2]
  rw [hcount]
  exact h.respond _ _

theorem SameView.receive {s t : State} (hs : Inv s) (ht : Inv t) (h : SameView s t) (b : Byte) :
    (receiveByte b t).1 = (receiveByte b s).1 ∧
      SameView (receiveByte b s).2 (receiveByte b t).2 := by
  obtain ⟨hcode, hview⟩ := h.put hs ht b
  have hnow : t.now = s.now := by rw [h.2]
  rw [receiveByte_eq, receiveByte_eq, hnow]
  obtain ⟨m, rd, wr, hring⟩ := hview.exists_ring
  rw [hring] at hview
  rw [hring]
  exact ⟨hcode, hview.update (fifoHeld_congr rfl rfl rfl rfl) (fifoHeld_congr rfl rfl rfl rfl) rfl⟩

theorem SameView.execTick {s t s' : State} (hs : Inv s) (ht : Inv t) (h : SameView s t)
    (hexec : execTick s = .next s') : ∃ t', execTick t = .next t' ∧ SameView s' t' := by
  obtain ⟨hfire, hview⟩ := h.check
  obtain ⟨r, u, hpoll⟩ := RsmPoll.progress (inv_checkTimeout hs)
  obtain ⟨v, hpoll', hview'⟩ := hview.poll (inv_checkTimeout hs) (inv_checkTimeout ht) hpoll
  simp only [Machine.execTick, hpoll.run] at hexec
  cases hexec
  simp only [Machine.execTick, hpoll'.run, hfire, hview'.rsmLow r]
  exact ⟨_, rfl, hview'.respond _ _⟩

/-- Settles O16: a command outside the FIFO carries the ring along (`exec_withRing`), and each of
the others acts on the queue, by its primitive or by the reassembler's rules. -/
theorem cursorsAndFreeSlotsAreUnobservable : Obligations.CursorsAndFreeSlotsAreUnobservable := by
  intro i s t s' hs ht h hexec
  cases i with
  | fifoPush b =>
    cases hexec
    obtain ⟨hcode, hview⟩ := h.put hs ht b
    refine ⟨_, rfl, ?_⟩
    rw [hcode]
    exact hview.respondCount _
  | fifoPop => exact h.execPop hs ht hexec
  | fifoPeek k => exact h.execPeek hexec
  | fifoReset =>
    cases hexec
    exact ⟨_, rfl, h.clear.respond _ _⟩
  | rsmStep =>
    obtain ⟨r, u, hmove, rfl⟩ := (execRsmStep_iff s s').mp hexec
    obtain ⟨v, hmove', hview⟩ := h.move hs ht hmove
    exact ⟨_, (execRsmStep_iff t _).mpr ⟨r, v, hmove', rfl⟩, hview.answer r⟩
  | rsmPoll =>
    obtain ⟨r, u, hpoll, rfl⟩ := (execRsmPoll_iff s s').mp hexec
    obtain ⟨v, hpoll', hview⟩ := h.poll hs ht hpoll
    exact ⟨_, hpoll'.exec, hview.answer r⟩
  | rxPush b =>
    cases hexec
    obtain ⟨hcode, hview⟩ := h.receive hs ht b
    refine ⟨_, rfl, ?_⟩
    rw [hcode]
    exact hview.respondCount _
  | linkCheck =>
    cases hexec
    obtain ⟨hfire, hview⟩ := h.check
    refine ⟨_, rfl, ?_⟩
    rw [hfire]
    exact hview.respond _ _
  | tick => exact h.execTick hs ht hexec
  | _ => exact h.exec_of_not_fifo (by simp [Instr.opcode]) hexec

end Sys2Proof.Machine
end

section
/-! PROOFS. The packet buffer and its fields (43_frame.md R101 to R104, 20_memory.md R54): what a
byte access reads and writes, and that each field is decoded from the bytes its write stores. -/

namespace Sys2Proof.Machine

/-! ### PKT_RD and PKT_WR -/

theorem offsetInRange_iff (s : State) (k : Half) :
    offsetInRange s k = true ↔ k.toNat < s.cfg.maxFrame := decide_eq_true_iff

/-- Settles O32: the two sides of the offset check. -/
theorem pktRdReadsOneByte : Obligations.PktRdReadsOneByte := fun s k =>
  ⟨fun h => if_pos ((offsetInRange_iff s k).mpr h),
    fun h => if_neg (mt (offsetInRange_iff s k).mp (Nat.not_lt.mpr h))⟩

/-- Settles O33: past the offset check one byte is written, which `pktByte_put` reads back. -/
theorem pktWrWritesOneByte : Obligations.PktWrWritesOneByte := by
  intro s k b hwf
  refine ⟨fun h => ⟨respond .ok 0 (pktPut k.toNat b s), if_pos ((offsetInRange_iff s k).mpr h), ?_,
    fun i hi => ?_, rfl⟩, fun h => if_neg (mt (offsetInRange_iff s k).mp (Nat.not_lt.mpr h))⟩
  · have hput := pktByte_put hwf k.toNat k.toNat b
    rwa [if_pos rfl] at hput
  · have hput := pktByte_put hwf k.toNat i b
    rwa [if_neg hi] at hput

/-! ### The field ids (R54) -/

/-- The id of a field. -/
def Field.id : Field → Byte
  | .rev => 0
  | .macLo => 1
  | .macHi => 2
  | .method => 3
  | .rpc => 4
  | .dlen => 5
  | .hck => 6
  | .pck => 7
  | .resp => 8

theorem fieldOf_eq_some_iff (f : Byte) (g : Field) : fieldOf f = some g ↔ f = g.id := by
  revert f
  cases g <;> decide

theorem fieldOf_reserved {f : Byte} (h : 9 ≤ f.toNat) : fieldOf f = none := by
  rw [Option.eq_none_iff_forall_ne_some]
  intro g hg
  rw [(fieldOf_eq_some_iff f g).mp hg] at h
  revert h
  cases g <;> decide

/-- Only field 7 asks for a legal data_length. -/
theorem fieldCheck_iff (g : Field) (s : State) :
    (fieldNeedsLength g && !pktLegal s) = true ↔ ¬ (g = .pck → pktLegal s = true) := by
  cases g <;> simp [fieldNeedsLength]

/-! ### PKT_GETF -/

theorem execPktGetf_of_some {s : State} {f : Byte} {g : Field} (h : fieldOf f = some g)
    (hlegal : g = .pck → pktLegal s = true) :
    execPktGetf f s = .next (respond .ok (fieldRead g s) s) := by
  rw [execPktGetf, h]
  exact if_neg fun hcheck => (fieldCheck_iff g s).mp hcheck hlegal

theorem execPktGetf_badLength {s : State} (h : pktLegal s = false) :
    execPktGetf 7 s = .next (raiseErr .badLength s) :=
  if_pos ((fieldCheck_iff .pck s).mpr (by simp [h]))

theorem execPktGetf_reserved {s : State} {f : Byte} (h : 9 ≤ f.toNat) :
    execPktGetf f s = .next (raiseErr .badIndex s) := by
  rw [execPktGetf, fieldOf_reserved h]

theorem pktLegal_iff (s : State) :
    pktLegal s = true ↔ 16 ≤ (pktDlen s).toNat ∧ (pktDlen s).toNat ≤ s.cfg.maxFrame :=
  lengthLegal_iff _ _

/-- `Le4` of four consecutive bytes (20_memory.md R46). -/
theorem leN_pktBytes_four (s : State) (i : Nat) :
    leN (pktBytes s i 4) = (pktByte s i).toNat + 2 ^ 8 * (pktByte s (i + 1)).toNat +
      2 ^ 16 * (pktByte s (i + 2)).toNat + 2 ^ 24 * (pktByte s (i + 3)).toNat := by
  have hlist : pktBytes s i 4 =
      [pktByte s i, pktByte s (i + 1), pktByte s (i + 2), pktByte s (i + 3)] := rfl
  simp only [hlist, leN]
  omega

/-- `Le2` of two consecutive bytes (20_memory.md R46). -/
theorem leN_pktBytes_two (s : State) (i : Nat) :
    leN (pktBytes s i 2) = (pktByte s i).toNat + 2 ^ 8 * (pktByte s (i + 1)).toNat := by
  have hlist : pktBytes s i 2 = [pktByte s i, pktByte s (i + 1)] := rfl
  simp only [hlist, leN]
  omega

/-- The data_length field as a number, in either byte order (20_memory.md R44). -/
theorem wire2_setWidth (o : WireOrder) (b0 b1 : Byte) :
    (wire2 o b0 b1).setWidth 32 = BitVec.ofNat 32 (match o with
      | .le => b0.toNat + 256 * b1.toNat
      | .be => 256 * b0.toNat + b1.toNat) := by
  have h0 := b0.isLt
  have h1 := b1.isLt
  cases o <;> exact ofNat_setWidth (by omega)

theorem ofBool_setWidth (b : Bool) :
    (BitVec.ofBool b).setWidth 32 = BitVec.ofNat 32 (if b then 1 else 0) := by
  cases b <;> rfl

/-- A field that is read answers its value `v`. -/
theorem execPktGetf_value {s : State} {f : Byte} {v : Nat} (g : Field) (h : f = g.id)
    (hlegal : g = .pck → pktLegal s = true) (hv : fieldRead g s = BitVec.ofNat 32 v) :
    exec (.pktGetf f) s = .next { s with status := 0x00, result := BitVec.ofNat 32 v } := by
  rw [exec_pktGetf, execPktGetf_of_some ((fieldOf_eq_some_iff f g).mpr h) hlegal, hv]
  rfl

/-- Settles O34: the value of each field is `fieldRead`, written out as a number. -/
theorem pktGetfDecodesFields : Obligations.PktGetfDecodesFields := by
  intro s f p dl ok
  refine ⟨fun hf => ?_, fun hf => ?_, fun hf => ?_, fun hf => ?_, fun hf => ?_, fun hf ho => ?_,
    fun hf ho => ?_, fun hf => ?_, fun hf hmin hmax => ?_, fun hf hbad => ?_, fun hf => ?_,
    fun hf => execPktGetf_reserved hf⟩
  · exact execPktGetf_value .rev hf nofun (ofNat_toNat_setWidth _)
  · exact execPktGetf_value .macLo hf nofun (congrArg (BitVec.ofNat 32) (leN_pktBytes_four s 1))
  · exact execPktGetf_value .macHi hf nofun (congrArg (BitVec.ofNat 32) (leN_pktBytes_two s 5))
  · exact execPktGetf_value .method hf nofun (ofNat_toNat_setWidth _)
  · exact execPktGetf_value .rpc hf nofun (congrArg (BitVec.ofNat 32) (leN_pktBytes_four s 8))
  · refine execPktGetf_value .dlen hf nofun ((wire2_setWidth _ _ _).trans ?_)
    rw [ho]
  · refine execPktGetf_value .dlen hf nofun ((wire2_setWidth _ _ _).trans ?_)
    rw [ho]
  · exact execPktGetf_value .hck hf nofun (ofNat_toNat_setWidth _)
  · exact execPktGetf_value .pck hf (fun _ => (pktLegal_iff s).mpr ⟨hmin, hmax⟩)
      (ofNat_toNat_setWidth _)
  · subst hf
    exact execPktGetf_badLength (Bool.eq_false_iff.mpr (mt (pktLegal_iff s).mp hbad))
  · exact execPktGetf_value .resp hf nofun (ofBool_setWidth _)

/-! ### PKT_SETF -/

theorem execPktSetf_of_some {s : State} {f : Byte} {g : Field} (d : Word) (h : fieldOf f = some g)
    (hlegal : g = .pck → pktLegal s = true) :
    execPktSetf f d s = .next (respond .ok 0 (fieldWrite g d s)) := by
  rw [execPktSetf, h]
  exact if_neg fun hcheck => (fieldCheck_iff g s).mp hcheck hlegal

theorem execPktSetf_badLength {s : State} (d : Word) (h : pktLegal s = false) :
    execPktSetf 7 d s = .next (raiseErr .badLength s) :=
  if_pos ((fieldCheck_iff .pck s).mpr (by simp [h]))

theorem execPktSetf_reserved {s : State} {f : Byte} (d : Word) (h : 9 ≤ f.toNat) :
    execPktSetf f d s = .next (raiseErr .badIndex s) := by
  rw [execPktSetf, fieldOf_reserved h]

/-- The bytes of PKT after a field's write: the field's own from its offset on, the others as
before. -/
theorem pktByte_fieldWrite {s : State} (hwf : Memory.wf s.pkt) (g : Field) (d : Word) (i : Nat) :
    pktByte (fieldWrite g d s) i =
      if fieldOffset g s ≤ i ∧ i < fieldOffset g s + (fieldBytes g d s).length then
        (fieldBytes g d s).getD (i - fieldOffset g s) 0
      else pktByte s i :=
  pktByte_putMany hwf _ _ _

theorem fieldResp_eq (g : Field) (d : Word) (s : State) :
    fieldResp g d s = if g = .resp then d.getLsbD 0 else s.pktResp := by
  cases g <;> rfl

/-- Settles O35: past its checks PKT_SETF is `fieldWrite`, byte by byte `pktByte_fieldWrite`. -/
theorem pktSetfEncodesFields : Obligations.PktSetfEncodesFields := by
  intro s f d hwf
  refine ⟨fun g hg hlegal => ?_, fun hf hbad => ?_, fun hf => execPktSetf_reserved d hf⟩
  · have hid := (fieldOf_eq_some_iff f g).mp hg
    have hpck : g = .pck → pktLegal s = true := fun h => hlegal (hid.trans (congrArg Field.id h))
    have hbyte (i : Nat) := pktByte_fieldWrite hwf g d i
    refine ⟨respond .ok 0 (fieldWrite g d s), execPktSetf_of_some d hg hpck, ?stored, ?kept, ?resp, ?frame⟩
    case stored =>
      intro j b hj
      obtain ⟨hlt, -⟩ := List.getElem?_eq_some_iff.mp hj
      refine (hbyte _).trans ?_
      rw [if_pos ⟨Nat.le_add_right _ _, Nat.add_lt_add_left hlt _⟩, Nat.add_sub_cancel_left,
        List.getD_eq_getElem?_getD, hj, Option.getD_some]
    case kept =>
      intro i hi
      exact (hbyte i).trans (if_neg (by omega))
    case resp =>
      refine (fieldResp_eq g d s).trans ?_
      have hresp : g = .resp ↔ f = 8 := by rw [hid]; cases g <;> decide
      simp only [hresp]
    case frame =>
      rw [fieldWrite_frame]
      rfl
  · subst hf
    exact execPktSetf_badLength d hbad

/-! ### Reading a field back -/

theorem wordByte_toNat (d : Word) (i : Nat) :
    (wordByte d i).toNat = d.toNat / 2 ^ (8 * i) % 2 ^ 8 := by
  rw [wordByte, BitVec.extractLsb'_toNat, Nat.shiftRight_eq_div_pow]

theorem leN_wordBytes_four (d : Word) :
    leN [wordByte d 0, wordByte d 1, wordByte d 2, wordByte d 3] = d.toNat := by
  have hd := d.isLt
  simp only [leN, wordByte_toNat]
  omega

theorem leN_wordBytes_two (d : Word) : leN [wordByte d 0, wordByte d 1] = d.toNat % 2 ^ 16 := by
  simp only [leN, wordByte_toNat]
  omega

/-- `Wire2` reads back the two bytes that a 16-bit value is stored as (20_memory.md R44). -/
theorem wire2_wireBytes (o : WireOrder) (v : Half) :
    wire2 o ((wireBytes o v).getD 0 0) ((wireBytes o v).getD 1 0) = v := by
  have hv := v.isLt
  apply BitVec.eq_of_toNat_eq
  have hbyte (i : Nat) : (v.extractLsb' i 8).toNat = v.toNat / 2 ^ i % 2 ^ 8 := by
    rw [BitVec.extractLsb'_toNat, Nat.shiftRight_eq_div_pow]
  cases o <;>
    simp only [wire2, wireBytes, List.getD_cons_zero, List.getD_cons_succ, BitVec.toNat_ofNat,
      hbyte] <;>
    omega

theorem wireBytes_length (o : WireOrder) (v : Half) : (wireBytes o v).length = 2 := by
  cases o <;> rfl

/-- A field's write is read back as the list it stored. -/
theorem pktBytes_fieldWrite {s : State} (hwf : Memory.wf s.pkt) (g : Field) (d : Word) :
    pktBytes (fieldWrite g d s) (fieldOffset g s) (fieldBytes g d s).length = fieldBytes g d s :=
  pktBytes_putMany hwf _ _

/-- Writing a field other than the data_length leaves the data_length. -/
theorem pktDlen_fieldWrite {s : State} (hwf : Memory.wf s.pkt) {g : Field} (d : Word)
    (hlegal : g = .pck → pktLegal s = true) (hg : g ≠ .dlen) :
    pktDlen (fieldWrite g d s) = pktDlen s := by
  have hkept (i : Nat) (hi : i = 12 ∨ i = 13) : pktByte (fieldWrite g d s) i = pktByte s i := by
    rw [pktByte_fieldWrite hwf, if_neg]
    cases g with
    | dlen => exact absurd rfl hg
    | pck =>
      obtain ⟨hmin, -⟩ := (pktLegal_iff s).mp (hlegal rfl)
      simp only [fieldOffset]
      omega
    | _ => simp [fieldOffset, fieldBytes] <;> omega
  have hcfg : (fieldWrite g d s).cfg = s.cfg := by rw [fieldWrite_frame]
  rw [pktDlen, pktDlen, hkept 12 (.inl rfl), hkept 13 (.inr rfl), hcfg]

/-- How many bits of `d` a field holds (20_memory.md R54). -/
def Field.width : Field → Nat
  | .rev | .method | .hck | .pck => 8
  | .macHi | .dlen => 16
  | .macLo | .rpc => 32
  | .resp => 1

theorem pktByte_fieldWrite_at {s : State} (hwf : Memory.wf s.pkt) {g : Field} {d : Word} {j : Nat}
    (hj : j < (fieldBytes g d s).length) :
    pktByte (fieldWrite g d s) (fieldOffset g s + j) = (fieldBytes g d s).getD j 0 := by
  rw [pktByte_fieldWrite hwf, if_pos ⟨Nat.le_add_right _ _, Nat.add_lt_add_left hj _⟩,
    Nat.add_sub_cancel_left]

theorem wordByte_zero_setWidth (d : Word) :
    ((wordByte d 0).setWidth 32).toNat = d.toNat % 2 ^ 8 := by
  rw [BitVec.toNat_setWidth_of_le (by decide), wordByte_toNat, Nat.mul_zero, Nat.pow_zero,
    Nat.div_one]

/-- A field that was just written reads as the bits of `d` that it holds. -/
theorem fieldRead_fieldWrite {s : State} (hwf : Memory.wf s.pkt) (g : Field) (d : Word)
    (hlegal : g = .pck → pktLegal s = true) :
    (fieldRead g (fieldWrite g d s)).toNat = d.toNat % 2 ^ g.width := by
  have hd := d.isLt
  have hfirst (hlen : 0 < (fieldBytes g d s).length) :=
    pktByte_fieldWrite_at hwf (g := g) (d := d) hlen
  have hbytes := pktBytes_fieldWrite hwf g d
  cases g with
  | rev | method | hck =>
    exact (congrArg (fun b => (b.setWidth 32).toNat) (hfirst Nat.one_pos)).trans
      (wordByte_zero_setWidth d)
  | pck =>
    rw [fieldRead, pktStoredPck, pktDlen_fieldWrite hwf d hlegal nofun]
    exact (congrArg (fun b => (b.setWidth 32).toNat) (hfirst Nat.one_pos)).trans
      (wordByte_zero_setWidth d)
  | macLo | rpc =>
    refine (congrArg (fun l => (BitVec.ofNat 32 (leN l)).toNat) hbytes).trans ?_
    simp only [fieldBytes, leN_wordBytes_four, BitVec.toNat_ofNat, Field.width]
  | macHi =>
    refine (congrArg (fun l => (BitVec.ofNat 32 (leN l)).toNat) hbytes).trans ?_
    simp only [fieldBytes, leN_wordBytes_two, BitVec.toNat_ofNat, Field.width]
    omega
  | dlen =>
    have hlen : (fieldBytes .dlen d s).length = 2 := wireBytes_length _ _
    have hsecond := pktByte_fieldWrite_at hwf (g := .dlen) (d := d) (j := 1) (by omega)
    have hcfg : (fieldWrite .dlen d s).cfg = s.cfg := by rw [fieldWrite_frame]
    have hdlen : pktDlen (fieldWrite .dlen d s) = d.extractLsb' 0 16 := by
      rw [pktDlen, hcfg, ← wire2_wireBytes s.cfg.wireOrder (d.extractLsb' 0 16)]
      exact congrArg₂ _ (hfirst (by omega)) hsecond
    rw [fieldRead, hdlen, BitVec.toNat_setWidth_of_le (by decide), BitVec.extractLsb'_toNat,
      Nat.shiftRight_zero, Field.width]
  | resp =>
    change ((BitVec.ofBool (d.getLsbD 0)).setWidth 32).toNat = _
    rw [BitVec.toNat_setWidth_of_le (by decide), BitVec.toNat_ofBool, BitVec.getLsbD, Field.width,
      Nat.testBit_zero, pow_one]
    rcases Nat.mod_two_eq_zero_or_one d.toNat with h | h <;> rw [h] <;> rfl

/-- PKT_SETF answers OK only where it writes. -/
theorem execPktSetf_ok {s t : State} {f : Byte} {d : Word} (h : execPktSetf f d s = .next t)
    (hok : t.status = 0x00) :
    ∃ g, fieldOf f = some g ∧ (g = .pck → pktLegal s = true) ∧
      t = respond .ok 0 (fieldWrite g d s) := by
  rw [execPktSetf] at h
  split at h
  · cases h
    exact absurd hok (show StatusCode.badIndex.code ≠ 0x00 by decide)
  · next g hg =>
    split at h
    · cases h
      exact absurd hok (show StatusCode.badLength.code ≠ 0x00 by decide)
    · next hcheck =>
      cases h
      exact ⟨g, hg, not_not.mp (mt (fieldCheck_iff g s).mpr hcheck), rfl⟩

theorem fieldRead_respond (g : Field) (c : StatusCode) (w : Word) (s : State) :
    fieldRead g (respond c w s) = fieldRead g s := by
  cases g <;> rfl

/-- Settles O36: the write leaves the length that field 7 is found by (`pktDlen_fieldWrite`), so the
read passes the same check and answers `fieldRead_fieldWrite`. -/
theorem setfThenGetfReadsBack : Obligations.SetfThenGetfReadsBack := by
  intro s t f d hinv hset hok
  obtain ⟨-, -, hwf, -⟩ := hinv.storage
  obtain ⟨g, hg, hlegal, rfl⟩ := execPktSetf_ok hset hok
  obtain rfl := (fieldOf_eq_some_iff f g).mp hg
  have hlegal' (hpck : g = .pck) : pktLegal (respond .ok 0 (fieldWrite g d s)) = true := by
    have hdlen := pktDlen_fieldWrite hwf d hlegal (by rw [hpck]; nofun)
    have hcfg : (fieldWrite g d s).cfg = s.cfg := by rw [fieldWrite_frame]
    change lengthLegal (fieldWrite g d s).cfg (pktDlen (fieldWrite g d s)) = true
    rw [hdlen, hcfg]
    exact hlegal hpck
  have hvalue := fieldRead_fieldWrite hwf g d hlegal
  refine ⟨_, execPktGetf_of_some hg hlegal', rfl, ?_⟩
  rw [respond_result, fieldRead_respond]
  cases g <;> simp_all [Field.id, Field.width, BitVec.toNat_eq, Nat.mod_eq_of_lt d.isLt]

end Sys2Proof.Machine
end

section
/-! PROOFS. The two checks of a frame, its validation and its framer (43_frame.md R105 to R109): the
validators compare a stored byte with the computed one, and the framer stores what they compute. -/

namespace Sys2Proof.Machine

/-! ### The validators -/

theorem pktBytes_zero (s : State) (n : Nat) : pktBytes s 0 n = (List.range n).map (pktByte s) := by
  simp [pktBytes]

theorem pktHeaderCk_eq (s : State) :
    pktHeaderCk s = ck s.cfg.ckAlg ((List.range 14).map (pktByte s)) := by
  rw [pktHeaderCk, pktBytes_zero]

/-- RESULT of a validator: the computed byte, and the match in bit 8. -/
theorem ckResult_eq (stored computed : Byte) :
    ckResult stored computed =
      BitVec.ofNat 32 ((if stored = computed then 256 else 0) + computed.toNat) := by
  have hbit : ∀ c : Byte, (1#32) <<< 8 ||| c.setWidth 32 = BitVec.ofNat 32 (256 + c.toNat) := by
    decide
  by_cases h : stored = computed
  · rw [if_pos h, ← hbit, h]
    simp [ckResult]
  · have hne : (stored == computed) = false := beq_eq_false_iff_ne.mpr h
    rw [if_neg h, Nat.zero_add, ← ofNat_toNat_setWidth, ckResult, hne]
    simp

/-- Settles O37: RESULT is `ckResult` of the stored and the computed byte. -/
theorem hdrCkReportsCheckAndMatch : Obligations.HdrCkReportsCheckAndMatch := by
  intro s h
  change Host.Outcome.next (respond .ok (ckResult (pktByte s 14) (pktHeaderCk s)) s) = _
  rw [ckResult_eq, pktHeaderCk_eq]
  rfl

/-- Settles O38: the two sides of the length check. -/
theorem payCkReportsCheckAndMatch : Obligations.PayCkReportsCheckAndMatch := by
  intro s dl q
  refine ⟨fun hmin hmax => ?_, fun hbad => if_neg (mt (pktLegal_iff s).mp hbad)⟩
  rw [exec_payCk, execPayCk, if_pos ((pktLegal_iff s).mpr ⟨hmin, hmax⟩), ckResult_eq]
  rfl

/-! ### PKT_VALIDATE -/

/-- The four conditions of 20_memory.md R53 on the frame in PKT, one after the other as R107 tests
them. -/
theorem validateCode_eq (s : State) :
    validateCode s =
      if pktByte s 0 ≠ s.cfgRev then .badRev
      else if pktByte s 14 ≠ ck s.cfg.ckAlg ((List.range 14).map (pktByte s)) then .badHck
      else if ¬ (16 ≤ (pktDlen s).toNat ∧ (pktDlen s).toNat ≤ s.cfg.maxFrame) then .badLen
      else if pktByte s ((pktDlen s).toNat - 1) ≠
        ck s.cfg.ckAlg ((List.range ((pktDlen s).toNat - 16)).map fun j => pktByte s (15 + j)) then
        .badPck
      else .pktOk := by
  have hlegal : pktLegal s = false ↔
      ¬ (16 ≤ (pktDlen s).toNat ∧ (pktDlen s).toNat ≤ s.cfg.maxFrame) := by
    rw [← pktLegal_iff, Bool.not_eq_true]
  simp only [validateCode, pktHeaderCk_eq, hlegal]
  rfl

/-- Settles O39: each code is the condition that fails first, read off `validateCode_eq`. -/
theorem pktValidateReportsFirstFailure : Obligations.PktValidateReportsFirstFailure := by
  intro s dl rev hdr len pay
  have hcode : validateCode s =
      if ¬ rev then .badRev else if ¬ hdr then .badHck else if ¬ len then .badLen
      else if ¬ pay then .badPck else .pktOk := validateCode_eq s
  refine ⟨respond (validateCode s) ((pktDlen s).setWidth 32) s, rfl, ?_, ?_⟩
  · rw [ofNat_toNat_setWidth]
    rfl
  · rw [respond_status, hcode]
    by_cases hrev : rev
    · by_cases hhdr : hdr
      · by_cases hlen : len
        · by_cases hpay : pay <;> simp [hrev, hhdr, hlen, hpay, StatusCode.code]
        · simp [hrev, hhdr, hlen, StatusCode.code]
      · simp [hrev, hhdr, StatusCode.code]
    · simp [hrev, StatusCode.code]

/-- The frame in PKT passes all four tests. -/
abbrev PktValid (s : State) : Prop :=
  pktByte s 0 = s.cfgRev ∧
  pktByte s 14 = ck s.cfg.ckAlg ((List.range 14).map (pktByte s)) ∧
  (16 ≤ (pktDlen s).toNat ∧ (pktDlen s).toNat ≤ s.cfg.maxFrame) ∧
  pktByte s ((pktDlen s).toNat - 1) =
    ck s.cfg.ckAlg ((List.range ((pktDlen s).toNat - 16)).map fun j => pktByte s (15 + j))

theorem PktValid.legal {s : State} (h : PktValid s) : pktLegal s = true := by
  obtain ⟨-, -, hlen, -⟩ := h
  exact (pktLegal_iff s).mpr hlen

theorem execPktValidate_valid {s : State} (h : PktValid s) :
    execPktValidate s = .next (respond .pktOk ((pktDlen s).setWidth 32) s) := by
  obtain ⟨hrev, hhdr, hlen, hpay⟩ := h
  rw [execPktValidate, validateCode_eq, if_neg (not_not.mpr hrev), if_neg (not_not.mpr hhdr),
    if_neg (not_not.mpr hlen), if_neg (not_not.mpr hpay)]

/-! ### The framer -/

theorem macBytes_getD (m : Mac) {i : Nat} (hi : i < 6) :
    (macBytes m).getD i 0 = m.extractLsb' (8 * i) 8 := by
  simp [macBytes, hi]

section
variable {s : State} (hwf : Memory.wf s.pkt)
include hwf

theorem stampFrame_wf : Memory.wf (stampFrame s).pkt :=
  pktPutMany_wf (Memory.wf_write hwf 0 s.cfgRev) _ _

/-- The stamped bytes: the tag, the six identity bytes, and the rest as before. -/
theorem pktByte_stampFrame (i : Nat) :
    pktByte (stampFrame s) i =
      if i = 0 then s.cfgRev
      else if i < 7 then s.devMac.extractLsb' (8 * (i - 1)) 8 else pktByte s i := by
  have hwf' : Memory.wf (pktPut 0 s.cfgRev s).pkt := Memory.wf_write hwf 0 _
  rw [stampFrame, pktByte_putMany hwf', pktByte_put hwf, macBytes_length]
  by_cases h0 : i = 0
  · simp [h0]
  · by_cases h7 : i < 7
    · rw [if_pos ⟨by omega, by omega⟩, if_neg h0, if_pos h7, macBytes_getD _ (by omega)]
    · rw [if_neg (by omega), if_neg h0, if_neg h0, if_neg h7]

/-- The finalised bytes: the two checks over the stamped ones. -/
theorem pktByte_finalized (i : Nat) :
    pktByte (finalized s) i =
      if i = (pktDlen s).toNat - 1 then pktPayloadCk (stampHeaderCk (stampFrame s)) (pktDlen s)
      else if i = 14 then pktHeaderCk (stampFrame s) else pktByte (stampFrame s) i := by
  have hstamp := stampFrame_wf hwf
  have hcheck : Memory.wf (stampHeaderCk (stampFrame s)).pkt := Memory.wf_write hstamp 14 _
  rw [finalized, stampPayloadCk, pktByte_put hcheck, stampHeaderCk, pktByte_put hstamp]

/-- A valid frame that carries the stamps already is left as it is: the checks over it are the
stored ones. -/
theorem pktByte_finalized_of_valid (hvalid : PktValid s)
    (hmac : ∀ i, i < 6 → pktByte s (1 + i) = s.devMac.extractLsb' (8 * i) 8) (i : Nat) :
    pktByte (finalized s) i = pktByte s i := by
  obtain ⟨hrev, hhdr, -, hpay⟩ := hvalid
  have hstamp (j : Nat) : pktByte (stampFrame s) j = pktByte s j := by
    rw [pktByte_stampFrame hwf]
    split
    · next h0 => rw [h0, hrev]
    · split
      · have hj := hmac (j - 1) (by omega)
        rw [← hj, Nat.add_sub_cancel' (by omega)]
      · rfl
  have hheader : pktHeaderCk (stampFrame s) = pktByte s 14 := by
    rw [pktHeaderCk_eq, stampFrame_cfg, hhdr]
    exact congrArg _ (List.map_congr_left fun j _ => hstamp j)
  have hchecked (j : Nat) : pktByte (stampHeaderCk (stampFrame s)) j = pktByte s j := by
    rw [stampHeaderCk, pktByte_put (stampFrame_wf hwf), hheader]
    split
    · next h14 => rw [h14]
    · exact hstamp j
  have hcfg : (stampHeaderCk (stampFrame s)).cfg = s.cfg := stampFrame_cfg s
  have hpayload : pktPayloadCk (stampHeaderCk (stampFrame s)) (pktDlen s) =
      pktByte s ((pktDlen s).toNat - 1) := by
    rw [pktPayloadCk, hcfg, hpay]
    exact congrArg _ (List.map_congr_left fun j _ => hchecked (15 + j))
  rw [pktByte_finalized hwf, hpayload, hheader]
  split
  · next hlast => rw [hlast]
  · split
    · next h14 => rw [h14]
    · exact hstamp i

end

theorem execPktFinalize_legal {s : State} (h : pktLegal s = true) :
    execPktFinalize s = .next (respond .ok ((pktDlen s).setWidth 32) (finalized s)) := if_pos h

/-- Settles O40: `pktByte_finalized` and `pktByte_stampFrame` give every byte; the checks were
computed over bytes that no later write of the framer touches. -/
theorem pktFinalizeStampsAndChecks : Obligations.PktFinalizeStampsAndChecks := by
  intro s hwf dl
  refine ⟨fun hmin hmax => ?_, fun hbad => if_neg (mt (pktLegal_iff s).mp hbad)⟩
  have hfinal (i : Nat) : pktByte (finalized s) i = _ := pktByte_finalized hwf i
  have hstamp (i : Nat) : pktByte (stampFrame s) i = _ := pktByte_stampFrame hwf i
  have hcfg : (finalized s).cfg = s.cfg := by rw [finalized_frame]
  have hbelow (i : Nat) (hi : i < 14) : pktByte (finalized s) i = pktByte (stampFrame s) i := by
    rw [hfinal, if_neg (show i ≠ dl - 1 by omega), if_neg (by omega)]
  refine ⟨respond .ok ((pktDlen s).setWidth 32) (finalized s),
    execPktFinalize_legal ((pktLegal_iff s).mpr ⟨hmin, hmax⟩), ?rev, fun i hi => ?mac, ?header,
    ?payload, fun i h6 h14 hlast => ?kept, ?frame⟩
  case rev =>
    exact (hbelow 0 (by omega)).trans (by rw [hstamp, if_pos rfl])
  case mac =>
    refine (congrArg BitVec.toNat (hbelow (1 + i) (by omega))).trans ?_
    rw [hstamp, if_neg (by omega), if_pos (by omega), Nat.add_sub_cancel_left,
      BitVec.extractLsb'_toNat, Nat.shiftRight_eq_div_pow]
  case header =>
    have hcheck : pktByte (finalized s) 14 = pktHeaderCk (stampFrame s) := by
      rw [hfinal, if_neg (show 14 ≠ dl - 1 by omega), if_pos rfl]
    refine hcheck.trans ?_
    rw [pktHeaderCk_eq, stampFrame_cfg]
    refine congrArg (ck s.cfg.ckAlg) (List.map_congr_left fun i hi => ?_)
    exact (hbelow i (List.mem_range.mp hi)).symm
  case payload =>
    have hcheck : pktByte (finalized s) (dl - 1) =
        pktPayloadCk (stampHeaderCk (stampFrame s)) (pktDlen s) := by
      rw [hfinal, if_pos rfl]
    have hstampCfg : (stampHeaderCk (stampFrame s)).cfg = s.cfg := stampFrame_cfg s
    refine hcheck.trans ?_
    rw [pktPayloadCk, hstampCfg]
    refine congrArg (ck s.cfg.ckAlg) (List.map_congr_left fun j hj => ?_)
    have hjlt : j < dl - 16 := List.mem_range.mp hj
    have hput := pktByte_put (stampFrame_wf hwf) 14 (15 + j) (pktHeaderCk (stampFrame s))
    rw [if_neg (by omega)] at hput
    refine hput.trans (Eq.symm ?_)
    refine (hfinal (15 + j)).trans ?_
    rw [if_neg (show 15 + j ≠ dl - 1 by omega), if_neg (by omega)]
  case kept =>
    refine (hfinal i).trans ?_
    rw [if_neg hlast, if_neg h14, hstamp, if_neg (by omega), if_neg (by omega)]
  case frame =>
    rw [finalized_frame, ofNat_toNat_setWidth]
    rfl

/-- PKT_FINALIZE answers OK only for a legal data_length. -/
theorem execPktFinalize_ok {s t : State} (h : execPktFinalize s = .next t) (hok : t.status = 0x00) :
    16 ≤ (pktDlen s).toNat ∧ (pktDlen s).toNat ≤ s.cfg.maxFrame := by
  by_contra hbad
  rw [execPktFinalize, if_neg (mt (pktLegal_iff s).mp hbad)] at h
  cases h
  exact absurd hok (show StatusCode.badLength.code ≠ 0x00 by decide)

/-- Settles O41: the framer leaves the data_length bytes, so its frame is valid, and a frame that is
valid and stamped is not changed by it again (`pktByte_finalized_of_valid`). -/
theorem finalizedFrameValidates : Obligations.FinalizedFrameValidates := by
  intro s t hinv hfinal hok
  obtain ⟨hmin, hmax⟩ := execPktFinalize_ok hfinal hok
  obtain ⟨-, -, hwf, -⟩ := hinv.storage
  obtain ⟨-, -, hwf', -⟩ := (exec_inv hinv hfinal).storage
  obtain ⟨t', ht', hrev, hmac, hhdr, hpay, hkept, hframe⟩ :=
    (pktFinalizeStampsAndChecks s hwf).1 hmin hmax
  obtain rfl : t' = t := Host.Outcome.next.inj (ht'.symm.trans hfinal)
  have hcfg : t'.cfg = s.cfg := by rw [hframe]
  have hcfgRev : t'.cfgRev = s.cfgRev := by rw [hframe]
  have hdevMac : t'.devMac = s.devMac := by rw [hframe]
  have hdlen : pktDlen t' = pktDlen s := by
    rw [pktDlen, pktDlen, hcfg, hkept 12 (by omega) (by omega) (by omega),
      hkept 13 (by omega) (by omega) (by omega)]
  have hvalid : PktValid t' := by
    rw [PktValid, hdlen, hcfg, hcfgRev]
    exact ⟨hrev, hhdr, ⟨hmin, hmax⟩, hpay⟩
  have hstamped (i : Nat) (hi : i < 6) :
      pktByte t' (1 + i) = t'.devMac.extractLsb' (8 * i) 8 := by
    apply BitVec.eq_of_toNat_eq
    rw [hmac i hi, hdevMac, BitVec.extractLsb'_toNat, Nat.shiftRight_eq_div_pow]
  refine ⟨?_, _, execPktFinalize_legal hvalid.legal,
    fun i => (pktByte_congr (respond_pkt _ _ _) i).trans
      (pktByte_finalized_of_valid hwf' hvalid hstamped i)⟩
  have hresult : t'.result = (pktDlen t').setWidth 32 := by
    rw [hdlen, ofNat_toNat_setWidth, hframe]
  rw [exec_pktValidate, execPktValidate_valid hvalid, ← hresult]
  rfl

end Sys2Proof.Machine
end

section
/-! PROOFS. What a poll does with a stream of bytes (44_reassembler.md R124): it discards garbage
byte by byte, waits on a part of a frame, and delivers a whole one. -/

namespace Sys2Proof.Machine

/-! ### Frames at the front of a stream -/

/-- The header conditions look at the first 15 bytes alone. -/
theorem headerGood_congr {l l' : List Byte} (h : l.take 15 = l'.take 15) (c : Config) (rev : Byte) :
    HeaderGood c rev l ↔ HeaderGood c rev l' := by
  rw [← headerAccepted_take_iff, h, headerAccepted_take_iff]

theorem lengthOf_congr {l l' : List Byte} (h : l.take 15 = l'.take 15) (c : Config) :
    lengthOf c l = lengthOf c l' := by
  rw [← frameLength_take, h, frameLength_take]

/-- The payload check of the frame that begins a stream, on the bytes that R119 peeks. -/
theorem payloadPasses_take_iff {c : Config} {l : List Byte} (hmin : 16 ≤ (lengthOf c l).toNat) :
    payloadPasses c (lengthOf c l).toNat (l.take (lengthOf c l).toNat) = true ↔ PayloadGood c l := by
  have hlast : (lengthOf c l).toNat - 1 < (lengthOf c l).toNat := by omega
  have hpayload : ((l.take (lengthOf c l).toNat).drop 15).take ((lengthOf c l).toNat - 16) =
      (l.drop 15).take ((lengthOf c l).toNat - 16) := by
    rw [List.drop_take, List.take_take, Nat.min_eq_left (by omega)]
  have hstored : (l.take (lengthOf c l).toNat).getD ((lengthOf c l).toNat - 1) 0 =
      l.getD ((lengthOf c l).toNat - 1) 0 := byteAt_take hlast
  rw [payloadPasses_iff, hpayload, hstored]

section
variable {c : Config} {rev : Byte} {W : List Byte} (hvalid : ValidFrame c rev W)
include hvalid

theorem validFrame_length_eq : W.length = (lengthOf c W).toNat := by
  obtain ⟨-, -, hlength⟩ := hvalid
  exact hlength

/-- A valid frame is at least 16 bytes long (R49). -/
theorem validFrame_length : 16 ≤ W.length := by
  obtain ⟨⟨-, -, hmin, -⟩, -, hlength⟩ := hvalid
  rw [hlength]
  exact hmin

/-- A valid frame begins with the tag. -/
theorem validFrame_cons : ∃ V, W = rev :: V := by
  have hlength := validFrame_length hvalid
  obtain ⟨⟨htag, -⟩, -⟩ := hvalid
  cases W with
  | nil => simp at hlength
  | cons b V => exact ⟨V, by rw [← htag, List.getD_cons_zero]⟩

/-- Followed by any bytes, a valid frame still has a good header. -/
theorem validFrame_header_append (rest : List Byte) :
    HeaderGood c rev (W ++ rest) ∧ lengthOf c (W ++ rest) = lengthOf c W := by
  have hlength := validFrame_length hvalid
  have htake : (W ++ rest).take 15 = W.take 15 := List.take_append_of_le_length (by omega)
  exact ⟨(headerGood_congr htake c rev).mpr hvalid.1, lengthOf_congr htake c⟩

/-- Cut after its header, a valid frame still has a good header. -/
theorem validFrame_header_take {n : Nat} (hn : 15 ≤ n) :
    HeaderGood c rev (W.take n) ∧ lengthOf c (W.take n) = lengthOf c W := by
  have htake : (W.take n).take 15 = W.take 15 := by rw [List.take_take, Nat.min_eq_left hn]
  exact ⟨(headerGood_congr htake c rev).mpr hvalid.1, lengthOf_congr htake c⟩

end

/-! ### Delivery -/

/-- What the delivery of the frame `F` leaves, with `rest` still held (R120). -/
structure Delivered (s : State) (F rest : List Byte) (t : State) : Prop where
  held : fifoHeld t = rest
  bytes : pktBytes t 0 F.length = F
  beyond : ∀ i, F.length ≤ i → pktByte t i = pktByte s i
  frame : t = { s with
    fifoRd := t.fifoRd
    fifoCount := t.fifoCount
    pkt := t.pkt
    pktResp := false
    frameCnt := s.frameCnt + 1
    rsmState := .seeking
    rsmLen := 0 }

/-- The delivery does not depend on where the reassembler was. -/
theorem Delivered.of_rsm {s : State} {F rest : List Byte} {t : State} {st : RsmState} {len : Half}
    (h : Delivered { s with rsmState := st, rsmLen := len } F rest t) : Delivered s F rest t :=
  ⟨h.held, h.bytes, h.beyond, h.frame⟩

/-- A transition that answers READY delivers the latched frame, whose payload check passed. -/
theorem RsmMove.delivered {s t : State} {dl : Half} (hinv : Inv s) (h : RsmMove s (.ready dl) t) :
    s.rsmState = .payloadPending ∧ dl = s.rsmLen ∧ s.rsmLen.toNat ≤ s.fifoCount.toNat ∧
      payloadPasses s.cfg s.rsmLen.toNat (latchedFrame s) = true ∧
      Delivered s (latchedFrame s) ((fifoHeld s).drop s.rsmLen.toNat) t := by
  cases h with
  | @deliver u hs henough hlegal hgood ht =>
    obtain ⟨-, -, hwf, -⟩ := hinv.storage
    have hframe := fifoDropMany_frame ht
    have hbyte (i : Nat) : pktByte u i = pktByte (pktPutMany 0 (latchedFrame s) s) i :=
      pktByte_congr (by rw [hframe]; rfl) i
    refine ⟨hs, rfl, henough, hgood, ?_, ?_, fun i hi => ?_, ?_⟩
    · have hheld := fifoDropMany_held (s := withLatchedFrame s) hinv.legal hinv.fifo henough ht
      exact hheld
    · refine (pktBytes_congr (s := pktPutMany 0 (latchedFrame s) s) fun i _ _ => hbyte i).trans ?_
      exact pktBytes_putMany hwf _ _
    · refine (hbyte i).trans ?_
      rw [pktByte_putMany hwf, if_neg (by omega)]
    · rw [hframe]
      rfl

/-- Where the reassembler may be while the frame `W` is at the head of the queue. -/
def OnFrame (W : List Byte) (s : State) : Prop :=
  s.rsmState = .seeking ∨ s.rsmState = .headerPending ∨
    (s.rsmState = .payloadPending ∧ s.rsmLen = lengthOf s.cfg W)

section
variable {s : State} {W rest : List Byte} (hinv : Inv s)
  (hvalid : ValidFrame s.cfg s.cfgRev W) (hheld : fifoHeld s = W ++ rest)
include hinv hvalid hheld

theorem poll_delivers_of_payload (hs : s.rsmState = .payloadPending)
    (hlen : s.rsmLen = lengthOf s.cfg W) :
    ∃ t, RsmPoll s (.ready (lengthOf s.cfg W)) t ∧ Delivered s W rest t := by
  obtain ⟨⟨-, -, hmin, hmax⟩, hpayload, hlength⟩ := hvalid
  have hdl : s.rsmLen.toNat = W.length := by rw [hlen, hlength]
  have hlatched : latchedFrame s = W := by
    rw [latchedFrame, hheld, hdl, List.take_left]
  have henough : s.rsmLen.toNat ≤ s.fifoCount.toNat := by
    rw [← fifoHeld_length, hheld, hdl, List.length_append]
    omega
  have hpass : payloadPasses s.cfg s.rsmLen.toNat (latchedFrame s) = true := by
    have hwhole : W.take (lengthOf s.cfg W).toNat = W := by rw [← hlength, List.take_length]
    have hgood := (payloadPasses_take_iff hmin).mpr hpayload
    rwa [hwhole, ← hlen, ← hlatched] at hgood
  obtain ⟨t, ht, -⟩ := fifoDropMany_spec (s := withLatchedFrame s) hinv.legal hinv.fifo henough
  obtain ⟨-, hlatchedLegal, -⟩ := hinv.rsm
  have hmove := RsmMove.deliver hs henough (hlatchedLegal hs) hpass ht
  obtain ⟨-, -, -, -, hdelivered⟩ := hmove.delivered hinv
  rw [hlatched, hheld, hdl, List.drop_left] at hdelivered
  rw [hlen] at hmove
  exact ⟨_, .stop hmove nofun, hdelivered⟩

theorem poll_delivers_of_header (hs : s.rsmState = .headerPending) :
    ∃ t, RsmPoll s (.ready (lengthOf s.cfg W)) t ∧ Delivered s W rest t := by
  obtain ⟨hheader, hlen⟩ := validFrame_header_append hvalid rest
  have hlong := validFrame_length hvalid
  have henough : 15 ≤ s.fifoCount.toNat := by
    rw [← fifoHeld_length, hheld, List.length_append]
    omega
  have hmove := RsmMove.accept hs henough (by rw [hheld]; exact hheader)
  rw [hheld, hlen] at hmove
  obtain ⟨t, hpoll, hdelivered⟩ := poll_delivers_of_payload (rest := rest) (hmove.inv hinv) hvalid
    ((fifoHeld_congr rfl rfl rfl rfl).trans hheld) rfl rfl
  exact ⟨t, .step hmove hpoll, hdelivered.of_rsm⟩

theorem poll_delivers_of_seeking (hs : s.rsmState = .seeking) :
    ∃ t, RsmPoll s (.ready (lengthOf s.cfg W)) t ∧ Delivered s W rest t := by
  obtain ⟨V, hV⟩ := validFrame_cons hvalid
  have hmove := RsmMove.tag (bs := V ++ rest) hs (by rw [hheld, hV, List.cons_append])
  obtain ⟨t, hpoll, hdelivered⟩ := poll_delivers_of_header (rest := rest) (hmove.inv hinv) hvalid
    ((fifoHeld_congr rfl rfl rfl rfl).trans hheld) rfl
  exact ⟨t, .step hmove hpoll, hdelivered.of_rsm⟩

/-- A poll delivers the whole valid frame at the head of the queue and nothing behind it. -/
theorem poll_delivers (hon : OnFrame W s) :
    ∃ t, RsmPoll s (.ready (lengthOf s.cfg W)) t ∧ Delivered s W rest t := by
  rcases hon with hs | hs | ⟨hs, hlen⟩
  · exact poll_delivers_of_seeking hinv hvalid hheld hs
  · exact poll_delivers_of_header hinv hvalid hheld hs
  · exact poll_delivers_of_payload hinv hvalid hheld hs hlen

end

/-! ### Garbage (R124 item 5) -/

/-- A poll from `s` discards `n` bytes as junk and is then, with `K` still held, in Seeking at `t`.
-/
structure Skipped (s : State) (n : Nat) (K : List Byte) (t : State) : Prop where
  poll : ∀ r u, RsmPoll t r u → RsmPoll s r u
  inv : Inv t
  held : fifoHeld t = K
  frame : t = { s with
    fifoRd := t.fifoRd
    fifoCount := t.fifoCount
    junkCnt := s.junkCnt + BitVec.ofNat 32 n
    hdrfailCnt := t.hdrfailCnt
    payfailCnt := t.payfailCnt
    rsmState := .seeking
    rsmLen := 0 }

theorem Skipped.trans {s t u : State} {n : Nat} {K L : List Byte} (h : Skipped s 1 K t)
    (h' : Skipped t n L u) : Skipped s (n + 1) L u where
  poll r v hv := h.poll r v (h'.poll r v hv)
  inv := h'.inv
  held := h'.held
  frame := by
    have hcount : s.junkCnt + BitVec.ofNat 32 1 + BitVec.ofNat 32 n =
        s.junkCnt + BitVec.ofNat 32 (n + 1) := by
      rw [BitVec.add_assoc, ← BitVec.ofNat_add, Nat.add_comm]
    have hframe := h'.frame
    rw [h.frame] at hframe
    simp only [hcount] at hframe
    exact hframe

/-- A transition that moves the reassembler alone comes before the discard. -/
theorem Skipped.after_move {s t : State} {n : Nat} {K : List Byte} {st : RsmState} {len : Half}
    (hmove : RsmMove s .cont { s with rsmLen := len, rsmState := st })
    (h : Skipped { s with rsmLen := len, rsmState := st } n K t) : Skipped s n K t where
  poll r u hu := .step hmove (h.poll r u hu)
  inv := h.inv
  held := h.held
  frame := h.frame

section
variable {s : State} {b : Byte} {bs : List Byte} (hinv : Inv s) (hheld : fifoHeld s = b :: bs)
include hinv hheld

/-- What the discard itself leaves: the tail of the queue. -/
theorem exists_junkOne : ∃ t, junkOne s = .ok t ∧ fifoHeld t = bs ∧
    t = { s with
      fifoRd := t.fifoRd
      fifoCount := s.fifoCount - 1
      junkCnt := s.junkCnt + 1 } := by
  have hne := fifoCount_ne_zero_of_held hheld
  have hjunk := (junkOne_ok_iff s _).mpr ⟨hne, rfl⟩
  have htail := junkOne_held hinv hjunk
  rw [hheld, List.tail_cons] at htail
  exact ⟨_, hjunk, htail, rfl⟩

theorem skips_at_payload (hs : s.rsmState = .payloadPending)
    (hlen : s.rsmLen = lengthOf s.cfg (b :: bs)) (hlegal : lengthLegal s.cfg s.rsmLen = true)
    (hfits : s.rsmLen.toNat ≤ (b :: bs).length) (hbad : ¬ PayloadGood s.cfg (b :: bs)) :
    ∃ t, Skipped s 1 bs t := by
  obtain ⟨u, hjunk, htail, hframe⟩ := exists_junkOne hinv hheld
  have henough : s.rsmLen.toNat ≤ s.fifoCount.toNat := by rwa [← fifoHeld_length, hheld]
  have hfails : payloadPasses s.cfg s.rsmLen.toNat (latchedFrame s) = false := by
    obtain ⟨hmin, -⟩ := (lengthLegal_iff _ _).mp hlegal
    rw [latchedFrame, hheld, hlen, Bool.eq_false_iff]
    exact mt (payloadPasses_take_iff (hlen ▸ hmin)).mp hbad
  have hmove := RsmMove.rejectPayload hs henough hlegal hfails hjunk
  refine ⟨_, fun r v hv => .step hmove hv, hmove.inv hinv, htail, ?_⟩
  rw [hframe]
  rfl

theorem skips_at_header (hs : s.rsmState = .headerPending) (hlong : 15 ≤ (b :: bs).length)
    (hskip : ¬ HeaderGood s.cfg s.cfgRev (b :: bs) ∨
      ((lengthOf s.cfg (b :: bs)).toNat ≤ (b :: bs).length ∧ ¬ PayloadGood s.cfg (b :: bs))) :
    ∃ t, Skipped s 1 bs t := by
  have henough : 15 ≤ s.fifoCount.toNat := by rwa [← fifoHeld_length, hheld]
  by_cases hheader : HeaderGood s.cfg s.cfgRev (b :: bs)
  · obtain ⟨hfits, hbad⟩ := hskip.resolve_left (not_not.mpr hheader)
    have ⟨_, _, hlegal⟩ := hheader
    have hmove := RsmMove.accept hs henough (by rw [hheld]; exact hheader)
    rw [hheld] at hmove
    obtain ⟨t, ht⟩ := skips_at_payload (hmove.inv hinv)
      ((fifoHeld_congr rfl rfl rfl rfl).trans hheld) rfl rfl
      ((lengthLegal_iff _ _).mpr hlegal) hfits hbad
    exact ⟨t, ht.after_move hmove⟩
  · obtain ⟨u, hjunk, htail, hframe⟩ := exists_junkOne hinv hheld
    have hmove := RsmMove.rejectHeader hs henough (by rw [hheld]; exact hheader) hjunk
    refine ⟨_, fun r v hv => .step hmove hv, hmove.inv hinv, htail, ?_⟩
    rw [hframe]
    rfl

/-- From Seeking, a garbage byte is discarded, within at most three transitions. -/
theorem skips_byte (hs : s.rsmState = .seeking) (hlong : 15 ≤ (b :: bs).length)
    (hskip : Skippable s.cfg s.cfgRev (b :: bs)) : ∃ t, Skipped s 1 bs t := by
  by_cases htag : b = s.cfgRev
  · have hmove := RsmMove.tag (bs := bs) hs (by rw [hheld, htag])
    obtain ⟨t, ht⟩ := skips_at_header (hmove.inv hinv)
      ((fifoHeld_congr rfl rfl rfl rfl).trans hheld) rfl hlong
      (hskip.resolve_left (not_not.mpr htag))
    exact ⟨t, ht.after_move hmove⟩
  · obtain ⟨u, hjunk, htail, hframe⟩ := exists_junkOne hinv hheld
    have hmove := RsmMove.junk hs hheld htag hjunk
    obtain ⟨-, -, hlen⟩ := hinv.rsm
    refine ⟨u, fun r v hv => .step hmove hv, hmove.inv hinv, htail, ?_⟩
    rw [hframe, ← hs, ← hlen (by rw [hs]; nofun)]
    rfl

end

/-- From Seeking, garbage is discarded up to the bytes `K` behind it. -/
theorem skips_garbage {s : State} {G K : List Byte} (hinv : Inv s) (hs : s.rsmState = .seeking)
    (hheld : fifoHeld s = G ++ K) (hlong : 15 ≤ K.length)
    (hskip : ∀ n, n < G.length → Skippable s.cfg s.cfgRev ((fifoHeld s).drop n)) :
    ∃ t, Skipped s G.length K t := by
  induction G generalizing s with
  | nil =>
    obtain ⟨-, -, hlen⟩ := hinv.rsm
    refine ⟨s, fun _ _ h => h, hinv, hheld, ?_⟩
    have hnone : s.junkCnt + BitVec.ofNat 32 0 = s.junkCnt := BitVec.add_zero _
    rw [List.length_nil, hnone, ← hs, ← hlen (by rw [hs]; nofun)]
  | cons g G ih =>
    have hfirst := hskip 0 (Nat.succ_pos _)
    rw [List.drop_zero, hheld] at hfirst
    have hlong' : 15 ≤ (g :: G ++ K).length := by
      rw [List.length_append]
      omega
    obtain ⟨t, ht⟩ := skips_byte hinv hheld hs hlong' hfirst
    have hstate := ht.frame
    obtain ⟨u, hu⟩ := ih ht.inv (congrArg State.rsmState hstate) ht.held fun n hn => by
      have hnext := hskip (n + 1) (Nat.succ_lt_succ hn)
      rw [hheld] at hnext
      rw [ht.held, congrArg State.cfg hstate, congrArg State.cfgRev hstate]
      exact hnext
    exact ⟨u, ht.trans hu⟩

/-- Settles O47: the garbage is discarded byte by byte (`skips_garbage`), and from there the poll
delivers the frame (`poll_delivers`). -/
theorem pollResynchronisesOnTheFrame : Obligations.PollResynchronisesOnTheFrame := by
  intro s G W rest hinv hs hvalid hheld hskip
  rw [List.append_assoc] at hheld
  have hlong := validFrame_length hvalid
  obtain ⟨t, hskipped⟩ := skips_garbage hinv hs hheld (by rw [List.length_append]; omega) hskip
  have htframe := hskipped.frame
  have hvalid' : ValidFrame t.cfg t.cfgRev W := by rw [htframe]; exact hvalid
  obtain ⟨u, hpoll, hdelivered⟩ := poll_delivers hskipped.inv hvalid' hskipped.held
    (.inl (congrArg State.rsmState htframe))
  have hpkt (i : Nat) : pktByte t i = pktByte s i := pktByte_congr (by rw [htframe]) i
  have huframe := hdelivered.frame
  refine ⟨_, (hskipped.poll _ _ hpoll).exec, rfl, ?_, hdelivered.bytes,
    fun i hi => (hdelivered.beyond i hi).trans (hpkt i),
    (fifoHeld_respond _ _ _).trans hdelivered.held, congrArg State.rsmState huframe,
    congrArg State.rsmLen huframe, congrArg State.pktResp huframe,
    (congrArg State.frameCnt huframe).trans ?_,
    (congrArg State.junkCnt huframe).trans (congrArg State.junkCnt htframe)⟩
  · exact (BitVec.toNat_setWidth_of_le (by decide)).trans (validFrame_length_eq hvalid').symm
  · rw [htframe]

/-! ### A part of a frame (R124 item 7) -/

/-- On a part of a valid frame a poll waits, with the reassembler where the frame needs it. -/
theorem poll_waits {s : State} {W : List Byte} {n : Nat} (hs : s.rsmState = .seeking)
    (hvalid : ValidFrame s.cfg s.cfgRev W) (hn : n < W.length) (hheld : fifoHeld s = W.take n) :
    ∃ t, RsmPoll s .notReady t ∧ OnFrame W t ∧
      t = { s with rsmState := t.rsmState, rsmLen := t.rsmLen } := by
  have hcount : s.fifoCount.toNat = n := by
    rw [← fifoHeld_length, hheld, List.length_take, Nat.min_eq_left (Nat.le_of_lt hn)]
  obtain ⟨V, hV⟩ := validFrame_cons hvalid
  cases n with
  | zero =>
    exact ⟨s, .stop (.waitSeeking hs (BitVec.eq_of_toNat_eq hcount)) nofun, .inl hs, rfl⟩
  | succ n =>
    have hmove := RsmMove.tag (bs := V.take n) hs (by rw [hheld, hV, List.take_succ_cons])
    have hheld' : fifoHeld { s with rsmState := .headerPending } = W.take (n + 1) :=
      (fifoHeld_congr rfl rfl rfl rfl).trans hheld
    by_cases hfew : n + 1 < 15
    · exact ⟨_, .step hmove (.stop (.waitHeader rfl (hcount.trans_lt hfew)) nofun),
        .inr (.inl rfl), rfl⟩
    · have henough : 15 ≤ n + 1 := Nat.not_lt.mp hfew
      obtain ⟨hheader, hlen⟩ := validFrame_header_take hvalid henough
      have hmove' := RsmMove.accept (s := { s with rsmState := .headerPending }) rfl
        (henough.trans_eq hcount.symm) (by rw [hheld']; exact hheader)
      rw [hheld', hlen] at hmove'
      have hwait : s.fifoCount.toNat < (lengthOf s.cfg W).toNat := by
        rw [hcount, ← validFrame_length_eq hvalid]
        exact hn
      exact ⟨_, .step hmove (.step hmove' (.stop (.waitPayload rfl hwait) nofun)),
        .inr (.inr ⟨rfl, rfl⟩), rfl⟩

/-- Settles O48: the poll waits in the state that the part of the frame leads to (`poll_waits`), and
from any state with the same reassembler the whole frame is delivered (`poll_delivers`). -/
theorem partialFrameWaitsAndIsDelivered : Obligations.PartialFrameWaitsAndIsDelivered := by
  intro s W n hinv hs hvalid hn hheld
  obtain ⟨t, hpoll, hon, hframe⟩ := poll_waits hs hvalid hn hheld
  have hcfg : t.cfg = s.cfg := by rw [hframe]
  refine ⟨_, hpoll.exec, rfl, ?_, ?_, ?_⟩
  · refine (fifoHeld_respond _ _ _).trans ((fifoHeld_congr ?_ ?_ ?_ ?_).trans hheld) <;> rw [hframe]
  · rw [hframe]
    rfl
  · intro u rest hinv' hucfg hurev hustate hulen huheld
    have hon' : OnFrame W u := by
      rw [OnFrame, hustate, hulen, hucfg, ← hcfg]
      exact hon
    obtain ⟨v, hpoll', hdelivered⟩ := poll_delivers hinv' (by rw [hucfg, hurev]; exact hvalid)
      huheld hon'
    exact ⟨_, hpoll'.exec, rfl, hdelivered.bytes, (fifoHeld_respond _ _ _).trans hdelivered.held⟩

end Sys2Proof.Machine
end

section
/-! PROOFS. Polls beside other commands (44_reassembler.md R124 items 6 and 8, 45_link.md R137): a
byte pushed while a poll waits, PKT_VALIDATE of what a poll delivered, and the poll inside TICK. -/

namespace Sys2Proof.Machine

/-! ### A byte appended (R124 item 6) -/

/-- `s` with `b` stored at the write cursor: `FifoPut(b)` with room (41_fifo.md R82). -/
def appended (b : Byte) (s : State) : State :=
  { s with
    fifoMem := Memory.write s.fifoMem s.fifoWr.toNat b
    fifoWr := cursorNext s.cfg s.fifoWr
    fifoCount := s.fifoCount + 1 }

theorem fifoPut_appended {s : State} (b : Byte) (h : s.fifoCount.toNat < s.cfg.fifoCap) :
    fifoPut b s = (.ok, appended b s) := fifoPut_not_full b (Nat.ne_of_lt h)

section
variable {s : State} (b : Byte) (hinv : Inv s) (hroom : s.fifoCount.toNat < s.cfg.fifoCap)
include hinv hroom

theorem fifoHeld_appended : fifoHeld (appended b s) = fifoHeld s ++ [b] := by
  obtain ⟨t, ht, hheld, -⟩ := fifoPut_room b hinv.legal hinv.fifo hinv.storage.1 hroom
  rw [fifoPut_appended b hroom] at ht
  cases ht
  exact hheld

theorem fifoCount_appended : (appended b s).fifoCount.toNat = s.fifoCount.toNat + 1 :=
  fifoCount_add_one_toNat hinv.legal hroom

/-- The discard takes the head, so it commutes with a byte appended at the end. -/
theorem junkOne_appended {t : State} (h : junkOne s = .ok t) :
    junkOne (appended b s) = .ok (appended b t) := by
  obtain ⟨hne, rfl⟩ := (junkOne_ok_iff s t).mp h
  have hcount := fifoCount_appended b hinv hroom
  have hswap : s.fifoCount + 1 - 1 = s.fifoCount - 1 + 1 := by
    rw [BitVec.add_sub_cancel, BitVec.sub_add_cancel]
  refine (junkOne_ok_iff _ _).mpr
    ⟨fifoCount_ne_zero_of_le (Nat.succ_pos s.fifoCount.toNat) hcount.ge, ?_⟩
  simp only [appended, hswap]

/-- A transition that answers CONTINUE decides by bytes that are held already. -/
theorem RsmMove.appended {t : State} (h : RsmMove s .cont t) :
    RsmMove (appended b s) .cont (appended b t) := by
  have hheld := fifoHeld_appended b hinv hroom
  have hcount := fifoCount_appended b hinv hroom
  have hfront (n : Nat) (hn : n ≤ s.fifoCount.toNat) :
      (fifoHeld s ++ [b]).take n = (fifoHeld s).take n :=
    List.take_append_of_le_length (by rwa [fifoHeld_length])
  cases h with
  | @tag bs hs h =>
    exact .tag (s := Machine.appended b s) (bs := bs ++ [b]) hs (by rw [hheld, h]; rfl)
  | @junk b' bs _ hs h hb ht =>
    exact .junk (bs := bs ++ [b]) hs (by rw [hheld, h]; rfl) hb (junkOne_appended b hinv hroom ht)
  | accept hs henough hgood =>
    have hmove := RsmMove.accept (s := Machine.appended b s) hs
      (henough.trans (hcount.ge.trans' (Nat.le_succ _)))
      (by rw [hheld, headerGood_congr (hfront 15 henough)]; exact hgood)
    rw [hheld, lengthOf_congr (hfront 15 henough)] at hmove
    exact hmove
  | rejectHeader hs henough hbad ht =>
    exact .rejectHeader (s := Machine.appended b s) hs
      (henough.trans (hcount.ge.trans' (Nat.le_succ _)))
      (by rw [hheld, headerGood_congr (hfront 15 henough)]; exact hbad)
      (junkOne_appended b hinv hroom ht)
  | rejectPayload hs henough hlegal hbad ht =>
    have hlatched : latchedFrame (Machine.appended b s) = latchedFrame s := by
      rw [latchedFrame, hheld]
      exact hfront _ henough
    exact .rejectPayload (s := Machine.appended b s) hs
      (henough.trans (hcount.ge.trans' (Nat.le_succ _))) hlegal (by rw [hlatched]; exact hbad)
      (junkOne_appended b hinv hroom ht)

end

theorem junkOne_count_le {s t : State} (h : junkOne s = .ok t) :
    t.fifoCount.toNat ≤ s.fifoCount.toNat := by
  have hcount := rsmMeasure_junkOne h
  omega

/-- No CONTINUE adds a byte. -/
theorem RsmMove.count_le {s t : State} (h : RsmMove s .cont t) :
    t.fifoCount.toNat ≤ s.fifoCount.toNat := by
  cases h with
  | tag | accept => exact Nat.le_refl _
  | junk _ _ _ ht | rejectHeader _ _ _ ht | rejectPayload _ _ _ _ ht =>
    have hle := junkOne_count_le ht
    exact hle

theorem RsmPoll.count_le {s t : State} (h : RsmPoll s .notReady t) :
    t.fifoCount.toNat ≤ s.fifoCount.toNat := by
  generalize hr : RsmReply.notReady = r at h
  induction h with
  | stop hmove _ =>
    subst hr
    rw [hmove.notReady_eq]
  | step hmove _ ih => exact (ih hr).trans hmove.count_le

/-- A poll that ends waiting can be made before the byte is appended, or left to the next poll. -/
theorem RsmPoll.run_appended {s t : State} (b : Byte) (hinv : Inv s)
    (hroom : s.fifoCount.toNat < s.cfg.fifoCap) (h : RsmPoll s .notReady t) :
    rsmRun (appended b s) = rsmRun (appended b t) := by
  generalize hr : RsmReply.notReady = r at h
  induction h with
  | stop hmove _ =>
    subst hr
    rw [hmove.notReady_eq]
  | step hmove _ ih =>
    have hroom' := hmove.count_le.trans_lt hroom
    rw [rsmRun_of_cont (hmove.appended b hinv hroom)]
    exact ih (hmove.inv hinv) (by rw [congrArg State.cfg hmove.frame]; exact hroom') hr

theorem execFifoPush_room {s : State} (b : Byte) (h : s.fifoCount.toNat < s.cfg.fifoCap) :
    execFifoPush b s =
      .next (respond .ok ((appended b s).fifoCount.setWidth 32) (appended b s)) :=
  execFifoPush_of_fifoPut (fifoPut_appended b h)

theorem inv_appended {s : State} (b : Byte) (hinv : Inv s)
    (hroom : s.fifoCount.toNat < s.cfg.fifoCap) : Inv (appended b s) := by
  have hput := inv_fifoPut hinv b
  rwa [fifoPut_appended b hroom] at hput

/-- Settles O49: both pushes find room, and the polls after them run to the same end
(`RsmPoll.run_appended`), whatever responses stand in the registers. -/
theorem waitingPollCommutesWithPush : Obligations.WaitingPollCommutesWithPush := by
  intro s t s1 t1 b hinv hroom hpoll hwait hpush hpush'
  obtain ⟨r, u, hrun, rfl⟩ := (execRsmPoll_iff s t).mp hpoll
  obtain rfl := (rsmAnswer_notReady_iff r u).mp hwait
  have hroom' : u.fifoCount.toNat < u.cfg.fifoCap := by
    rw [congrArg State.cfg hrun.frame]
    exact hrun.count_le.trans_lt hroom
  rw [exec_fifoPush, execFifoPush_room b hroom] at hpush
  rw [exec_fifoPush, execFifoPush_room (s := rsmAnswer .notReady u) b hroom'] at hpush'
  cases hpush
  cases hpush'
  obtain ⟨r, v, hnext⟩ := RsmPoll.progress (inv_appended b hinv hroom)
  have hnext' : RsmPoll (appended b u) r v := by
    rw [← rsmRun_iff, ← hrun.run_appended b hinv hroom, rsmRun_iff]
    exact hnext
  calc exec .rsmPoll (respond .ok ((appended b s).fifoCount.setWidth 32) (appended b s))
    _ = .next (rsmAnswer r v) := execRsmPoll_respond _ _ hnext
    _ = exec .rsmPoll (respond .ok ((appended b u).fifoCount.setWidth 32) (appended b u)) :=
      (execRsmPoll_respond _ _ hnext').symm

/-! ### Checks on delivery (R124 item 8) -/

theorem pktByte_of_bytes {s : State} {F : List Byte} (h : pktBytes s 0 F.length = F) {i : Nat}
    (hi : i < F.length) : pktByte s i = F.getD i 0 := by
  conv_rhs => rw [← h]
  simp [pktBytes, hi]

/-- A part of the frame in PKT is that part of the list of its bytes. -/
theorem map_pktByte_of_bytes {s : State} {F : List Byte} (h : pktBytes s 0 F.length = F) {i n : Nat}
    (hn : i + n ≤ F.length) : (List.range n).map (fun j => pktByte s (i + j)) = (F.drop i).take n := by
  apply List.ext_getElem
  · simp
    omega
  · intro j hj _
    simp only [List.length_map, List.length_range] at hj
    have hlt : i + j < F.length := by omega
    simp [pktByte_of_bytes h hlt, hlt]

/-- A valid frame in PKT passes the four tests of PKT_VALIDATE. -/
theorem pktValid_of_frame {s : State} {F : List Byte} (hvalid : ValidFrame s.cfg s.cfgRev F)
    (h : pktBytes s 0 F.length = F) : pktDlen s = lengthOf s.cfg F ∧ PktValid s := by
  have hlong := validFrame_length hvalid
  obtain ⟨⟨htag, hheader, hlegal⟩, hpayload, hlength⟩ := hvalid
  have hdlen : pktDlen s = lengthOf s.cfg F := by
    rw [pktDlen, pktByte_of_bytes h (by omega), pktByte_of_bytes h (by omega)]
  have hfront : (List.range 14).map (pktByte s) = F.take 14 := by
    have hmap := map_pktByte_of_bytes h (i := 0) (n := 14) (by omega)
    simpa using hmap
  refine ⟨hdlen, ?_, ?_, ?_, ?_⟩
  · rw [pktByte_of_bytes h (by omega), htag]
  · rw [hfront, pktByte_of_bytes h (by omega), hheader]
  · rw [hdlen]
    exact hlegal
  · rw [hdlen, ← hlength, pktByte_of_bytes h (by omega),
      map_pktByte_of_bytes h (i := 15) (by omega), hlength]
    exact hpayload

/-- In PayloadPending, the header that was latched is still at the head of the queue. -/
def HeaderLatched (s : State) : Prop :=
  s.rsmState = .payloadPending →
    HeaderGood s.cfg s.cfgRev (fifoHeld s) ∧ s.rsmLen = lengthOf s.cfg (fifoHeld s)

/-- Within a poll nothing takes the checked header away. -/
theorem RsmMove.headerLatched {s t : State} (h : RsmMove s .cont t) : HeaderLatched t := by
  cases h with
  | accept _ _ hgood =>
    have hheld := fifoHeld_congr (s := s)
      (t := { s with rsmLen := lengthOf s.cfg (fifoHeld s), rsmState := .payloadPending })
      rfl rfl rfl rfl
    refine fun _ => ⟨?_, ?_⟩ <;> rw [hheld]
    exact hgood
  | tag | rejectHeader | rejectPayload => exact nofun
  | junk hs _ _ ht =>
    obtain ⟨-, rfl⟩ := (junkOne_ok_iff _ _).mp ht
    exact fun hp => absurd (hs.symm.trans hp) nofun

theorem RsmMove.delivers_valid {s t : State} {dl : Half} (hinv : Inv s) (hlatched : HeaderLatched s)
    (h : RsmMove s (.ready dl) t) : pktDlen t = dl ∧ PktValid t := by
  obtain ⟨hs, rfl, henough, hpass, hdelivered⟩ := h.delivered hinv
  obtain ⟨hheader, hlen⟩ := hlatched hs
  have ⟨_, _, hmin, _⟩ := hheader
  rw [← hlen] at hmin
  have htake : (latchedFrame s).take 15 = (fifoHeld s).take 15 := by
    rw [latchedFrame, List.take_take, Nat.min_eq_left (by omega)]
  have hlen' : lengthOf s.cfg (latchedFrame s) = s.rsmLen := by
    rw [lengthOf_congr htake, hlen]
  have hwhole : (latchedFrame s).length = (lengthOf s.cfg (latchedFrame s)).toNat := by
    rw [latchedFrame_length henough, hlen']
  have hpayload : PayloadGood s.cfg (latchedFrame s) := by
    rw [← payloadPasses_take_iff (by rw [hlen']; exact hmin), ← hwhole, List.take_length, hwhole,
      hlen']
    exact hpass
  have hcfg : t.cfg = s.cfg := by rw [hdelivered.frame]
  have hrev : t.cfgRev = s.cfgRev := by rw [hdelivered.frame]
  have hvalid : ValidFrame t.cfg t.cfgRev (latchedFrame s) := by
    rw [hcfg, hrev]
    exact ⟨(headerGood_congr htake _ _).mpr hheader, hpayload, hwhole⟩
  obtain ⟨hdlen, hok⟩ := pktValid_of_frame hvalid hdelivered.bytes
  exact ⟨by rw [hdlen, hcfg, hlen'], hok⟩

theorem RsmPoll.delivers_valid {s t : State} {dl : Half} (hinv : Inv s) (hlatched : HeaderLatched s)
    (h : RsmPoll s (.ready dl) t) : pktDlen t = dl ∧ PktValid t := by
  generalize hr : RsmReply.ready dl = r at h
  induction h with
  | stop hmove _ =>
    subst hr
    exact hmove.delivers_valid hinv hlatched
  | step hmove _ ih => exact ih (hmove.inv hinv) hmove.headerLatched hr

/-- Settles O50: what the poll delivers is valid (`RsmPoll.delivers_valid`), and RESULT already
holds the length that PKT_VALIDATE answers. -/
theorem polledFrameValidates : Obligations.PolledFrameValidates := by
  intro s t hinv hs hpoll hready
  obtain ⟨r, u, hrun, rfl⟩ := (execRsmPoll_iff s t).mp hpoll
  obtain ⟨dl, rfl⟩ := (rsmAnswer_ready_iff r u).mp hready
  obtain ⟨hdlen, hvalid⟩ := hrun.delivers_valid hinv fun h => absurd h hs
  have hanswer : PktValid (rsmAnswer (.ready dl) u) := hvalid
  have hdlen' : pktDlen (rsmAnswer (.ready dl) u) = dl := hdlen
  rw [exec_pktValidate, execPktValidate_valid hanswer, hdlen']
  rfl

/-! ### TICK (45_link.md R137) -/

theorem execTick_of_poll {s t : State} {r : RsmReply} (h : RsmPoll (checkTimeout s).2 r t) :
    execTick s = .next
      (respond r.status (tickResult (checkTimeout s).1.hasFired (rsmLow r t)) t) := by
  simp only [execTick, h.run]

/-- RESULT of TICK: the poll's RESULT, and the fire in bit 16. -/
theorem tickResult_eq (fired : Bool) (low : Half) :
    tickResult fired low =
      BitVec.ofNat 32 ((if fired then 2 ^ 16 else 0) + (low.setWidth 32).toNat) := by
  have hlow : low.toNat < 2 ^ 16 := low.isLt
  have hwide : (low.setWidth 32).toNat = low.toNat := BitVec.toNat_setWidth_of_le (by decide)
  apply BitVec.eq_of_toNat_eq
  rw [tickResult, BitVec.toNat_or, hwide, BitVec.toNat_ofNat]
  cases fired with
  | false =>
    rw [Nat.mod_eq_of_lt (by simp; omega)]
    simp
  | true =>
    have hbit : ((BitVec.ofBool true).setWidth 32 <<< 16).toNat = 1 <<< 16 := by decide
    rw [hbit, ← Nat.shiftLeft_add_eq_or_of_lt hlow]
    simp
    omega

/-- After the timeout the FIFO is empty and the reassembler in Seeking, so a poll waits at once. -/
theorem poll_linkTimeout (s : State) : RsmPoll (linkTimeout s) .notReady (linkTimeout s) :=
  .stop (.waitSeeking rfl rfl) nofun

/-- Settles O55: the poll of TICK and the poll after LINK_CHECK begin in the same state but for the
response; the code 0x06 of LINK_CHECK is the fire. -/
theorem tickIsCheckThenPoll : Obligations.TickIsCheckThenPoll := by
  intro s hinv
  obtain ⟨r, t, hpoll⟩ := RsmPoll.progress (inv_checkTimeout hinv)
  have hfired : (checkTimeout s).1.status.code = 0x06 ↔ (checkTimeout s).1.hasFired = true := by
    cases (checkTimeout s).1 <;> simp [Fire.status, Fire.hasFired, StatusCode.code]
  refine ⟨respond (checkTimeout s).1.status (checkTimeout s).1.overshoot (checkTimeout s).2,
    rsmAnswer r t, rfl, execRsmPoll_respond _ _ hpoll, ?_, fun hfire => ?_⟩
  · rw [exec_tick, execTick_of_poll hpoll, tickResult_eq]
    simp only [respond_status, hfired]
    rfl
  · rcases checkTimeout_cases s with ⟨-, hcheck⟩ | ⟨v, -, hcheck⟩
    · rw [hcheck] at hfire
      exact absurd hfire (show StatusCode.notFired.code ≠ 0x06 by decide)
    · rw [hcheck] at hpoll
      obtain ⟨rfl, rfl⟩ : r = .notReady ∧ t = linkTimeout (tryFire 0 s).2 := by
        have hrun := hpoll.run.symm.trans (poll_linkTimeout _).run
        cases hrun
        exact ⟨rfl, rfl⟩
      exact ⟨rfl, rfl⟩

end Sys2Proof.Machine
end

section
/-! PROOFS. The remaining commands: the reads of the FIFO (41_fifo.md R86, R87), the writes of a
timer (42_timer.md R93, R96), the received byte (45_link.md R134) and the two commands that set one
flag. -/

namespace Sys2Proof.Machine

/-! ### FIFO_PEEK and FIFO_AVAIL -/

theorem execFifoPeek_of_lt {s : State} {k : Half} (h : k.toNat < s.fifoCount.toNat) :
    execFifoPeek k s = .next (respond .ok ((fifoByte s k.toNat).setWidth 32) s) := by
  rw [execFifoPeek, if_pos h, fifoPeek, if_pos h]

/-- Settles O23: the two sides of the distance check, and the count as a number. -/
theorem fifoPeekAndAvailRead : Obligations.FifoPeekAndAvailRead := by
  intro s k
  refine ⟨fun h => execFifoPeek_of_lt h, fun h => if_neg (Nat.not_lt.mpr h), ?_⟩
  rw [← ofNat_toNat_setWidth]
  rfl

/-! ### RSM_RESET and LINK_SETEST -/

/-- Settles O51: RSM_RESET is `RsmClear()` and the response OK. -/
theorem rsmResetReturnsToSeeking : Obligations.RsmResetReturnsToSeeking := fun _ => rfl

/-- Settles O54: LINK_SETEST sets its flag and answers OK. -/
theorem linkSetestEstablishes : Obligations.LinkSetestEstablishes := fun _ => rfl

/-! ### TMR_INIT and TMR_RESTART -/

/-- One timer of the list is replaced, the others stay. -/
theorem timers_set_getElem? {s : State} {n : Nat} (h : n < s.timers.length) (tm : Timer) :
    (s.timers.set n tm)[n]? = some tm ∧ ∀ j, j ≠ n → (s.timers.set n tm)[j]? = s.timers[j]? :=
  ⟨List.getElem?_set_self h, fun _ hj => List.getElem?_set_ne hj.symm⟩

/-- Settles O26: TMR_INIT in range is `setTimer`. -/
theorem tmrInitSetsOneTimer : Obligations.TmrInitSetsOneTimer := by
  intro s t d hlen hin
  obtain ⟨hset, hkept⟩ := timers_set_getElem? (hin.trans_eq hlen.symm) { last := s.now, intv := d }
  exact ⟨_, if_pos ((timerInRange_iff s t).mpr hin), hset, hkept, rfl⟩

/-- `last[t] <- w` on a timer of the list. -/
theorem setLast_of_getElem? {s : State} {n : Nat} {tm : Timer} (w : Word)
    (h : s.timers[n]? = some tm) :
    setLast n w s = { s with timers := s.timers.set n { last := w, intv := tm.intv } } := by
  rw [setLast, timerAt_of_getElem? h]
  rfl

/-- Settles O27: TMR_RESTART in range is `setLast` at NOW. -/
theorem tmrRestartKeepsTheInterval : Obligations.TmrRestartKeepsTheInterval := by
  intro s t tm hlen hin htm
  obtain ⟨hset, hkept⟩ :=
    timers_set_getElem? (hin.trans_eq hlen.symm) { last := s.now, intv := tm.intv }
  refine ⟨respond .ok 0 { s with timers := s.timers.set t.toNat { last := s.now, intv := tm.intv } },
    ?_, hset, hkept, rfl⟩
  rw [← setLast_of_getElem? s.now htm]
  exact if_pos ((timerInRange_iff s t).mpr hin)

/-! ### RX_PUSH -/

theorem execRxPush_of_fifoPut {s t : State} {b : Byte} {c : StatusCode} {tm : Timer}
    (h : fifoPut b s = (c, t)) (htm : t.timers[0]? = some tm) :
    execRxPush b s = .next (respond c (t.fifoCount.setWidth 32)
      { t with timers := t.timers.set 0 { last := s.now, intv := tm.intv } }) := by
  rw [execRxPush, receiveByte_eq, h, setLast_of_getElem? s.now htm]

/-- Settles O52: the put of FIFO_PUSH (`fifoPut_room`, `fifoPut_full`), and the watchdog restarted
after both. -/
theorem rxPushRestartsTheWatchdog : Obligations.RxPushRestartsTheWatchdog := by
  intro s b tm hinv htm
  obtain ⟨hwf, -⟩ := hinv.storage
  refine ⟨fun hroom => ?_, fun hfull => ?_⟩
  · obtain ⟨t, hput, hheld, -, hcount, hframe⟩ := fifoPut_room b hinv.legal hinv.fifo hwf hroom
    have hmem : t.fifoMem = Memory.write s.fifoMem s.fifoWr.toNat b := by rw [hframe]
    refine ⟨_, execRxPush_of_fifoPut hput (by rw [hframe]; exact htm), ?_, ?_, fun a ha => ?_, ?_⟩
    · rw [fifoHeld_respond, ← hheld]
      exact fifoHeld_congr rfl rfl rfl rfl
    · rw [respond_result, BitVec.toNat_setWidth_of_le (by decide), hcount]
    · rw [respond_fifoMem, hmem, Memory.read_write hwf, if_neg ha]
    · rw [hframe]
      rfl
  · rw [exec_rxPush, execRxPush_of_fifoPut (fifoPut_full b hfull) htm, ← hfull,
      ← ofNat_toNat_setWidth]
    rfl

end Sys2Proof.Machine
end

section
/-! PROOFS. The policy of the firing check (42_timer.md R97), on the numbers of one timer: what a
check does to the reference time, and what the checks after it can still do while NOW stands still.
-/

namespace Sys2Proof.Machine

/-! ### One check, on numbers -/

/-- A firing check of a timer with reference time `last` and interval `intv`: whether it fires, its
overshoot and the new reference time (R91). -/
inductive FireStep (cmp : TmrCmp) (now last intv : Nat) : Bool → Nat → Nat → Prop
  | backward (hback : now < last) : FireStep cmp now last intv false 0 now
  | stays (hclock : last ≤ now) (hf : fires cmp (now - last) intv = false) :
      FireStep cmp now last intv false 0 last
  | snap (hclock : last ≤ now) (hf : fires cmp (now - last) intv = true)
      (hover : intv < now - last - intv) : FireStep cmp now last intv true (now - last - intv) now
  | catchUp (hclock : last ≤ now) (hf : fires cmp (now - last) intv = true)
      (hover : now - last - intv ≤ intv) :
      FireStep cmp now last intv true (now - last - intv) (last + intv)

/-- A fire needs the whole interval, whichever the comparison. -/
theorem le_of_fires {cmp : TmrCmp} {diff intv : Nat} (h : fires cmp diff intv = true) :
    intv ≤ diff := by
  rcases (fires_iff cmp diff intv).mp h with ⟨-, h⟩ | ⟨-, h⟩
  · exact h
  · exact Nat.le_of_lt h

section
variable {cmp : TmrCmp} {now last intv ovs last' : Nat} {fired : Bool}

theorem FireStep.fired_iff (h : FireStep cmp now last intv fired ovs last') :
    fired = true ↔ last ≤ now ∧ fires cmp (now - last) intv = true := by
  cases h with
  | backward hback => simp [Nat.not_le.mpr hback]
  | stays hclock hf => simp [hf]
  | snap hclock hf | catchUp hclock hf => simp [hclock, hf]

/-- The reference time is not ahead of NOW after a check. -/
theorem FireStep.last_le (h : FireStep cmp now last intv fired ovs last') : last' ≤ now := by
  cases h with
  | backward | snap => exact Nat.le_refl _
  | stays hclock => exact hclock
  | catchUp hclock hf =>
    have hdue := le_of_fires hf
    omega

/-- A clock behind the reference time does not fire and reports 0. -/
theorem FireStep.of_backward (h : FireStep cmp now last intv fired ovs last') (hback : now < last) :
    fired = false ∧ ovs = 0 := by
  cases h with
  | backward | stays => exact ⟨rfl, rfl⟩
  | snap hclock | catchUp hclock => exact absurd hback (Nat.not_lt.mpr hclock)

/-- A check that does not fire leaves a reference time that is not ahead of NOW. -/
theorem FireStep.last_eq (h : FireStep cmp now last intv false ovs last') (hclock : last ≤ now) :
    last' = last := by
  cases h with
  | backward hback => exact absurd hclock (Nat.not_le.mpr hback)
  | stays => rfl

/-- At the reference time itself a positive interval has not elapsed. -/
theorem FireStep.not_fired_at_now (h : FireStep cmp now now intv fired ovs last')
    (hpos : intv ≠ 0) : fired = false := by
  rw [← Bool.not_eq_true, h.fired_iff, Nat.sub_self]
  rintro ⟨-, hf⟩
  have hdue := le_of_fires hf
  omega

end

/-- Bounded catch-up: what the second and the third check at one NOW can do after a fire. -/
theorem FireStep.after_fire {cmp : TmrCmp} {now last intv ovs last₁ ovs₂ last₂ ovs₃ last₃ : Nat}
    {fired₂ fired₃ : Bool} (hpos : intv ≠ 0) (h : FireStep cmp now last intv true ovs last₁)
    (h₂ : FireStep cmp now last₁ intv fired₂ ovs₂ last₂)
    (h₃ : FireStep cmp now last₂ intv fired₃ ovs₃ last₃) :
    (cmp = .gt → fired₂ = false) ∧
      (cmp = .ge → (fired₂ = true ↔ ovs = intv) ∧ fired₃ = false) := by
  cases h with
  | snap _ _ hover =>
    obtain rfl := h₂.not_fired_at_now hpos
    obtain rfl := h₂.last_eq (Nat.le_refl _)
    exact ⟨fun _ => rfl, fun _ => ⟨by simp; omega, h₃.not_fired_at_now hpos⟩⟩
  | catchUp hclock hf hover =>
    have hdue := le_of_fires hf
    have hclock₁ : last + intv ≤ now := by omega
    have hfired : fired₂ = true ↔ fires cmp (now - (last + intv)) intv = true := by
      rw [h₂.fired_iff]
      exact and_iff_right hclock₁
    refine ⟨?_, ?_⟩
    · rintro rfl
      rw [← Bool.not_eq_true, hfired, fires_iff]
      simp
      omega
    · rintro rfl
      refine ⟨?_, ?_⟩
      · rw [hfired, fires_iff]
        simp
        omega
      · cases h₂ with
        | backward hback => omega
        | stays _ hf₂ =>
          rw [← Bool.not_eq_true, h₃.fired_iff, hf₂]
          simp
        | snap _ _ hover₂ => omega
        | catchUp _ hf₂ =>
          have hdue₂ := le_of_fires hf₂
          have hnow : last + intv + intv = now := by omega
          rw [hnow] at h₃
          exact h₃.not_fired_at_now hpos

/-! ### TMR_TRYFIRE makes one such check -/

theorem setLast_getElem? {s : State} {n : Nat} {tm : Timer} (w : Word) (h : s.timers[n]? = some tm) :
    (setLast n w s).timers[n]? = some { last := w, intv := tm.intv } := by
  obtain ⟨hlt, -⟩ := List.getElem?_eq_some_iff.mp h
  rw [setLast_of_getElem? w h]
  exact List.getElem?_set_self hlt

/-- The firing check of timer `n`, on its numbers. -/
theorem tryFire_step {s : State} {n : Nat} {tm : Timer} (htm : s.timers[n]? = some tm) :
    ∃ tm', (tryFire n s).2.timers[n]? = some tm' ∧ tm'.intv = tm.intv ∧
      FireStep s.cfg.tmrCmp s.now.toNat tm.last.toNat tm.intv.toNat (tryFire n s).1.hasFired
        (tryFire n s).1.overshoot.toNat tm'.last.toNat := by
  have hnow := s.now.isLt
  have hat := timerAt_of_getElem? htm
  have hcases := tryFire_cases n s
  rw [hat] at hcases
  have hnarrow (v : Nat) (hv : v ≤ s.now.toNat) : (BitVec.ofNat 32 v).toNat = v := by
    rw [BitVec.toNat_ofNat]
    exact Nat.mod_eq_of_lt (by omega)
  rcases hcases with ⟨hback, h⟩ | ⟨hclock, hf, h⟩ | ⟨hclock, hf, hover, h⟩ | ⟨hclock, hf, hover, h⟩
  · rw [h]
    exact ⟨_, setLast_getElem? _ htm, rfl, .backward hback⟩
  · rw [h]
    exact ⟨tm, htm, rfl, .stays hclock hf⟩
  · rw [h]
    refine ⟨_, setLast_getElem? _ htm, rfl, ?_⟩
    rw [Fire.overshoot, hnarrow _ (by omega)]
    exact .snap hclock hf hover
  · have hdue := le_of_fires hf
    rw [h]
    refine ⟨_, setLast_getElem? _ htm, rfl, ?_⟩
    rw [Fire.overshoot, hnarrow _ (by omega), hnarrow _ (by omega)]
    exact .catchUp hclock hf hover

theorem Fire.status_code (f : Fire) : f.status.code = if f.hasFired then 0x06 else 0x07 := by
  cases f <;> rfl

theorem execTmrTryfire_step {s u : State} {t : Byte} {tm : Timer} (hin : t.toNat < s.cfg.nTimers)
    (htm : s.timers[t.toNat]? = some tm) (h : exec (.tmrTryfire t) s = .next u) :
    ∃ tm' fired, u.timers[t.toNat]? = some tm' ∧ tm'.intv = tm.intv ∧ u.now = s.now ∧
      u.cfg = s.cfg ∧ u.status = (if fired then 0x06 else 0x07) ∧
      FireStep s.cfg.tmrCmp s.now.toNat tm.last.toNat tm.intv.toNat fired u.result.toNat
        tm'.last.toNat := by
  obtain ⟨⟨hcfg, hnow, -⟩, -⟩ := onlyTheNamedCommandsChangeState _ s u h
  rw [exec_tmrTryfire, execTmrTryfire_of_tryFire hin rfl] at h
  cases h
  obtain ⟨tm', htm', hintv, hstep⟩ := tryFire_step htm
  exact ⟨tm', (tryFire t.toNat s).1.hasFired, htm', hintv, hnow, hcfg,
    Fire.status_code (tryFire t.toNat s).1, hstep⟩

/-- The status of a firing check tells whether it fired. -/
theorem fired_of_status {w : Byte} {fired : Bool} (h : w = if fired then 0x06 else 0x07) :
    (w = 0x06 ↔ fired = true) ∧ (w = 0x07 ↔ fired = false) := by
  subst h
  cases fired <;> decide

/-- Settles O30: each check of TMR_TRYFIRE is a `FireStep` on the same NOW and interval, so the four
properties are those of one step, and of three in a row (`FireStep.after_fire`). -/
theorem timerPolicyProperties : Obligations.TimerPolicyProperties := by
  intro s u t tm hin htm hu
  obtain ⟨tu, fired, htu, hintv, hnow, hcfg, hstatus, hstep⟩ := execTmrTryfire_step hin htm hu
  obtain ⟨hfired, hnotFired⟩ := fired_of_status hstatus
  refine ⟨fun hback => ?_, fun v w hpos hufired hv hw => ?_, fun hlate => ?_, fun hge hexact => ?_,
    fun _ => ⟨tu, htu, hstep.last_le⟩⟩
  · obtain ⟨hstays, hzero⟩ := hstep.of_backward hback
    exact ⟨hnotFired.mpr hstays, BitVec.eq_of_toNat_eq hzero⟩
  · obtain ⟨tv, fired₂, htv, hintv₂, hnow₂, hcfg₂, hstatus₂, hstep₂⟩ :=
      execTmrTryfire_step (by rw [hcfg]; exact hin) htu hv
    obtain ⟨tw, fired₃, -, -, -, -, hstatus₃, hstep₃⟩ :=
      execTmrTryfire_step (by rw [hcfg₂, hcfg]; exact hin) htv hw
    rw [hnow, hcfg, hintv] at hstep₂
    rw [hnow₂, hcfg₂, hintv₂, hnow, hcfg, hintv] at hstep₃
    rw [hfired.mp hufired] at hstep
    obtain ⟨hfired₂, hnotFired₂⟩ := fired_of_status hstatus₂
    obtain ⟨-, hnotFired₃⟩ := fired_of_status hstatus₃
    have hpos' : tm.intv.toNat ≠ 0 := fun h0 => hpos (BitVec.eq_of_toNat_eq h0)
    rw [hfired₂, hnotFired₂, hnotFired₃, ← BitVec.toNat_inj]
    exact hstep.after_fire hpos' hstep₂ hstep₃
  · rw [hfired, hstep.fired_iff, fires_iff]
    refine ⟨by omega, ?_⟩
    cases s.cfg.tmrCmp <;> simp <;> omega
  · rw [hfired, hstep.fired_iff, fires_iff]
    exact ⟨by omega, .inl ⟨hge, by omega⟩⟩

end Sys2Proof.Machine
end
